-- ==== Sys2Proof/Word.lean ====
section
/-! DEFINITION. The plain types of the model: a byte, the nine-bit detail register, a float pattern. Time is a plain
Nat of ticks that does not wrap (00_scope.md R7, 92_eei_decisions.md D2). -/

namespace Sys2Proof

/-- A byte: an unsigned integer 0..255 (00_scope.md R7). -/
abbrev Byte := BitVec 8

/-- The width of RES_GOT, which holds 0..256 (10_state.md R30). -/
abbrev Got := BitVec 9

/-- A 32-bit IEEE-754 pattern, carried and never computed with (45_catalog_and_decoders.md R268). -/
abbrev Float32Bits := BitVec 32

/-- The sum of the elements of a byte sequence as an unbounded natural number (00_scope.md R7). -/
def sumBytes : List Byte → Nat
  | [] => 0
  | b :: s => b.toNat + sumBytes s

end Sys2Proof
end

