-- ==== Sys2Proof/Config.lean ====
section
/-! DEFINITION. What is fixed for the machine (00_scope.md R6) and the free values: what the spec leaves open after an
operation that goes on. A free value is an opaque constant applied to the counter `draws` of State, so nothing can be proved
of it. -/

namespace Sys2Proof.Config

/-- `MARKER`, the start and stop delimiter (00_scope.md R6). -/
def MARKER : Byte := 0x7E

/-- `ESC`, the escape introducer (00_scope.md R6). -/
def ESC : Byte := 0x7D

/-- `DEV_ADDR`, the hardwired device address; not a register (10_state.md R22). -/
def DEV_ADDR : Byte := 0x00

/-- `MAX_PAYLOAD`, the largest payload length (00_scope.md R6). -/
def MAX_PAYLOAD : Nat := 255

/-- `RXBUF_SIZE`: length, 255 payload bytes, checksum (00_scope.md R6). -/
def RXBUF_SIZE : Nat := 257

/-- Where RXCNT saturates: 258 means "258 or more" (10_state.md R28). -/
def RXCNT_MAX : Nat := 258

/-- The ten 4-byte fields of a Reading need 40 bytes (45_catalog_and_decoders.md R266). -/
def READING_BYTES : Nat := 40

/-- FREE VALUE: an 8-bit register the spec says holds no value (42_frame_codec.md R164; 60_exceptions.md R290;
93_implementation_defined.md I3, I4). Notes: log 10, log 11. -/
opaque freeByte : Nat → Byte

/-- FREE VALUE: an element of a buffer that holds no value (10_state.md R24, R28; 93_implementation_defined.md I5). Notes:
log 24. -/
opaque freeElement : Nat → Byte

/-- FREE VALUE: RES_GOT where the recorded kind gives it no value (60_exceptions.md R290; 93 I4). Notes: log 11. -/
opaque freeGot : Nat → Got

/-- FREE VALUE: the capture time the host's clock gives when the Measurement Decoder is evaluated
(45_catalog_and_decoders.md R269; 93 I13). Notes: log 25. -/
opaque captureTime : Nat → Nat

end Sys2Proof.Config
end

