-- ==== Sys2Proof/Syntax.lean ====
section
/-! DEFINITION. The operations of the engine: one constructor of Instr per row of spec/opcode_table.json, in its order. -/

namespace Sys2Proof

/-- The decoder registered for a command (10_state.md R21, CFG_DECSEL: 0 = ACK, 1 = Measurement Decoder). -/
inductive Decoder
  | ack
  | meas
  deriving DecidableEq, Repr

/-- One configuration register together with a value of its width (10_state.md R21, R23): a value wider than the register
is not an operand of CFGWRITE (93_implementation_defined.md I8), so it cannot be written down here. -/
inductive CfgWrite
  | retries (v : Byte)
  | timeout (v : Nat)
  | backoff (v : Nat)
  | settle (v : Nat)
  | minMeasLen (v : Byte)
  | decsel (i : Fin 7) (d : Decoder)
  deriving DecidableEq, Repr

/-- The operations (00_scope.md R9; 30_encoding.md R106). `p` is a payload, `s` a byte sequence, `a`, `c`, `l`, `k` the
address, command, length and checksum bytes. -/
inductive Instr
  -- format REQ: host commands (44_commands.md R241 to R247)
  | startMeas (p : List Byte)
  | stopMeas (p : List Byte)
  | readMeas (p : List Byte)
  | autoclean (p : List Byte)
  | fanClean (p : List Byte)
  | devInfo (p : List Byte)
  | devReset (p : List Byte)
  -- format ESC: two consecutive wire bytes (30_encoding.md R94)
  | esc7E
  | esc7D
  | esc11
  | esc13
  -- format DELIM: the wire byte 0x7E (30_encoding.md R93)
  | marker
  -- format STATUS: the status byte of a response (30_encoding.md R96, R103)
  | status00
  | status01
  | status02
  | status03
  | status04
  | status28
  | status43
  | statusOther (code : Byte)
  -- format OP: operations of the host port, of the units and of the transport port
  | stuff (s : List Byte)
  | unstuff (s : List Byte)
  | chkgen (a c l : Byte) (p : List Byte)
  | chkverify (a c l : Byte) (p : List Byte) (k : Byte)
  | encode (a c : Byte) (p : List Byte)
  | decode
  | execute (c : Byte) (p : List Byte)
  | consume
  | cfgwrite (w : CfgWrite)
  | reset
  | errlookup (code : Byte)
  | ackdec (p : List Byte)
  | measdec (p : List Byte) (ts : Nat)
  | rxbyte
  | txwrite (s : List Byte)
  | rxflush
  deriving DecidableEq, Repr

end Sys2Proof
end

