-- ==== Sys2Proof/WellFormed.lean ====
section
/-! DEFINITION. What an operand must satisfy for the term to be an operation of the spec. -/

namespace Sys2Proof

/-- The status codes that have a row of their own (30_encoding.md R96). -/
def listedStatus (code : Byte) : Bool :=
  code = 0x00 || code = 0x01 || code = 0x02 || code = 0x03 || code = 0x04 || code = 0x28 || code = 0x43

/-- A payload operand is 0..255 bytes (30_encoding.md R97; 44_commands.md R240). -/
def payloadFits (p : List Byte) : Bool := p.length ≤ Config.MAX_PAYLOAD

/-- The checks, instruction by instruction. EXECUTE takes a payload of any length: a longer one is an operand it refuses
with PayloadTooLong (43_transaction.md R203). STATUS_OTHER stands for a code the table does not list (R103).
TXWRITE with any byte sequence is DESIGN CHOICE: 20_memory.md R67 names whole encoded frames only (log 38). -/
def Instr.wf : Instr → Bool
  | .startMeas p => payloadFits p
  | .stopMeas p => payloadFits p
  | .readMeas p => payloadFits p
  | .autoclean p => payloadFits p
  | .fanClean p => payloadFits p
  | .devInfo p => payloadFits p
  | .devReset p => payloadFits p
  | .esc7E => true
  | .esc7D => true
  | .esc11 => true
  | .esc13 => true
  | .marker => true
  | .status00 => true
  | .status01 => true
  | .status02 => true
  | .status03 => true
  | .status04 => true
  | .status28 => true
  | .status43 => true
  | .statusOther code => !listedStatus code
  | .stuff _ => true
  | .unstuff _ => true
  | .chkgen _ _ _ p => payloadFits p
  | .chkverify _ _ _ p _ => payloadFits p
  | .encode _ _ p => payloadFits p
  | .decode => true
  | .execute _ _ => true
  | .consume => true
  | .cfgwrite _ => true
  | .reset => true
  | .errlookup _ => true
  | .ackdec p => payloadFits p
  | .measdec p _ => payloadFits p
  | .rxbyte => true
  | .txwrite _ => true
  | .rxflush => true

/-- The operation is well formed. -/
abbrev WellFormed (i : Instr) : Prop := i.wf = true

end Sys2Proof
end

