-- ==== Sys2Proof/Decode.lean ====
section
/-! DEFINITION. The code tables of 30_encoding.md, the decoder from bytes to operations, total and rejecting by name, and
after it the encoder.

A record is a format of spec/opcode_table.json and a byte sequence. REQ, ESC, DELIM and STATUS records are the spec's own
bytes. The sixteen OP rows have no encoding in the spec (30_encoding.md R106); their records, a selector byte and operands,
are a DESIGN CHOICE of the model (log 2). -/

namespace Sys2Proof

/-! ### The tables -/

/-- `RESERVED` of 30_encoding.md R94. -/
def isReserved (b : Byte) : Bool := b = 0x7E || b = 0x7D || b = 0x11 || b = 0x13

/-- `ESCCODES` of 30_encoding.md R94. -/
def isEscCode (b : Byte) : Bool := b = 0x5E || b = 0x5D || b = 0x31 || b = 0x33

/-- `esc(r)`, the second byte of the escape pair of a reserved byte (30_encoding.md R94); none for every other byte. -/
def esc (r : Byte) : Option Byte :=
  if r = 0x7E then some 0x5E
  else if r = 0x7D then some 0x5D
  else if r = 0x11 then some 0x31
  else if r = 0x13 then some 0x33
  else none

/-- `unesc(c)`, the inverse of `esc`, defined on `ESCCODES` only (30_encoding.md R94). -/
def unesc (c : Byte) : Option Byte :=
  if c = 0x5E then some 0x7E
  else if c = 0x5D then some 0x7D
  else if c = 0x31 then some 0x11
  else if c = 0x33 then some 0x13
  else none

/-- The index of a command byte in the closed command set (30_encoding.md R95); none outside it. -/
def commandIndex (c : Byte) : Option (Fin 7) :=
  if c = 0x00 then some 0
  else if c = 0x01 then some 1
  else if c = 0x03 then some 2
  else if c = 0x80 then some 3
  else if c = 0x56 then some 4
  else if c = 0xD0 then some 5
  else if c = 0xD3 then some 6
  else none

/-- The command byte is one of the seven (43_transaction.md R203). -/
def isCommand (c : Byte) : Bool := (commandIndex c).isSome

/-- The sequencing commands of 30_encoding.md R95. -/
def isSequencing (c : Byte) : Bool := c = 0x00 || c = 0x01 || c = 0x56 || c = 0xD3

/-! ### Decoding -/

/-- The formats of spec/opcode_table.json (30_encoding.md R106). -/
inductive Format
  | req
  | esc
  | delim
  | status
  | op
  deriving DecidableEq, Repr

/-- Why a record stands for no operation. -/
inductive Reject
  /-- An operand, or the whole record, is missing. -/
  | missing
  /-- Bytes are left over after the last operand. -/
  | trailing
  /-- A REQ record whose command byte is outside the closed set (30_encoding.md R100). -/
  | illegalCommand (c : Byte) (p : List Byte)
  /-- A REQ record whose length byte differs from the number of payload bytes (30_encoding.md R97). -/
  | lengthDisagrees (declared : Byte) (found : Nat)
  /-- Two bytes that are no escape pair (30_encoding.md R101). -/
  | illegalEscape (introducer code : Byte)
  /-- A byte that is not the marker (30_encoding.md R93). -/
  | notMarker (b : Byte)
  /-- A selector that no OP row has. -/
  | unknownOperation (selector : Byte)
  /-- A register number, decoder index or decoder value that CFGWRITE does not have (10_state.md R21). -/
  | unknownRegister (n : Byte)
  /-- A payload operand of more than 255 bytes (30_encoding.md R104). -/
  | payloadTooLong (n : Nat)
  /-- A number that is cut short or not in its shortest form. -/
  | badNumber
  deriving DecidableEq, Repr

/-- A REQ operation of a command byte (30_encoding.md R95). -/
def commandInstr (c : Byte) (p : List Byte) : Except Reject Instr :=
  if c = 0x00 then .ok (.startMeas p)
  else if c = 0x01 then .ok (.stopMeas p)
  else if c = 0x03 then .ok (.readMeas p)
  else if c = 0x80 then .ok (.autoclean p)
  else if c = 0x56 then .ok (.fanClean p)
  else if c = 0xD0 then .ok (.devInfo p)
  else if c = 0xD3 then .ok (.devReset p)
  else .error (.illegalCommand c p)

/-- A REQ record: interior bytes 1 onward of a request, `command, length, payload` (30_encoding.md R90); address and
checksum are the engine's to supply. -/
def decodeReq : List Byte → Except Reject Instr
  | c :: l :: p => if p.length = l.toNat then commandInstr c p else .error (.lengthDisagrees l p.length)
  | _ => .error .missing

/-- An ESC record: the introducer and a code (30_encoding.md R94). -/
def decodeEsc : List Byte → Except Reject Instr
  | [i, c] =>
    if i ≠ Config.ESC then .error (.illegalEscape i c)
    else if c = 0x5E then .ok .esc7E
    else if c = 0x5D then .ok .esc7D
    else if c = 0x31 then .ok .esc11
    else if c = 0x33 then .ok .esc13
    else .error (.illegalEscape i c)
  | _ :: _ :: _ :: _ => .error .trailing
  | _ => .error .missing

/-- A DELIM record: the marker (30_encoding.md R93). -/
def decodeDelim : List Byte → Except Reject Instr
  | [b] => if b = Config.MARKER then .ok .marker else .error (.notMarker b)
  | _ :: _ :: _ => .error .trailing
  | [] => .error .missing

/-- The operation of a status byte (30_encoding.md R96, R103): every byte is one. -/
def statusInstr (b : Byte) : Instr :=
  if b = 0x00 then .status00
  else if b = 0x01 then .status01
  else if b = 0x02 then .status02
  else if b = 0x03 then .status03
  else if b = 0x04 then .status04
  else if b = 0x28 then .status28
  else if b = 0x43 then .status43
  else .statusOther b

/-- A STATUS record: the status byte of a response (30_encoding.md R91). -/
def decodeStatus : List Byte → Except Reject Instr
  | [b] => .ok (statusInstr b)
  | _ :: _ :: _ => .error .trailing
  | [] => .error .missing

/-- Reads a number: seven bits a byte, low bits first, bit 7 set on every byte but the last; only the shortest form is
read (log 2). -/
def readNat : List Byte → Option (Nat × List Byte)
  | [] => none
  | b :: r =>
    if b.toNat < 128 then some (b.toNat, r)
    else
      match readNat r with
      | none => none
      | some (n, r') => if n = 0 then none else some (b.toNat - 128 + 128 * n, r')

/-- An operation whose payload operand must fit. -/
def withPayload (p : List Byte) (i : Instr) : Except Reject Instr :=
  if payloadFits p then .ok i else .error (.payloadTooLong p.length)

/-- An operation without operands. -/
def bare (i : Instr) : List Byte → Except Reject Instr
  | [] => .ok i
  | _ :: _ => .error .trailing

/-- A CFGWRITE of a time register. -/
def cfgNat (w : Nat → CfgWrite) (bs : List Byte) : Except Reject Instr :=
  match readNat bs with
  | some (n, []) => .ok (.cfgwrite (w n))
  | some (_, _ :: _) => .error .trailing
  | none => .error .badNumber

/-- A CFGWRITE of an 8-bit register. -/
def cfgByte (w : Byte → CfgWrite) : List Byte → Except Reject Instr
  | [v] => .ok (.cfgwrite (w v))
  | [] => .error .missing
  | _ :: _ :: _ => .error .trailing

/-- A CFGWRITE of CFG_DECSEL[i] (10_state.md R21). -/
def cfgDecsel : List Byte → Except Reject Instr
  | [i, d] =>
    if h : i.toNat < 7 then
      if d = 0 then .ok (.cfgwrite (.decsel ⟨i.toNat, h⟩ .ack))
      else if d = 1 then .ok (.cfgwrite (.decsel ⟨i.toNat, h⟩ .meas))
      else .error (.unknownRegister d)
    else .error (.unknownRegister i)
  | _ :: _ :: _ :: _ => .error .trailing
  | _ => .error .missing

/-- The operands of CFGWRITE: a register number in the order of 10_state.md R21, then the value. -/
def decodeCfg : List Byte → Except Reject Instr
  | [] => .error .missing
  | r :: bs =>
    if r = 0 then cfgByte .retries bs
    else if r = 1 then cfgNat .timeout bs
    else if r = 2 then cfgNat .backoff bs
    else if r = 3 then cfgNat .settle bs
    else if r = 4 then cfgByte .minMeasLen bs
    else if r = 5 then cfgDecsel bs
    else .error (.unknownRegister r)

/-- The operands of CHKGEN. -/
def decodeChkgen : List Byte → Except Reject Instr
  | a :: c :: l :: p => withPayload p (.chkgen a c l p)
  | _ => .error .missing

/-- The operands of CHKVERIFY; the received checksum stands before the payload. -/
def decodeChkverify : List Byte → Except Reject Instr
  | a :: c :: l :: k :: p => withPayload p (.chkverify a c l p k)
  | _ => .error .missing

/-- The operands of ENCODE. -/
def decodeEncode : List Byte → Except Reject Instr
  | a :: c :: p => withPayload p (.encode a c p)
  | _ => .error .missing

/-- The operands of EXECUTE. -/
def decodeExecute : List Byte → Except Reject Instr
  | c :: p => .ok (.execute c p)
  | [] => .error .missing

/-- The operand of ERRLOOKUP. -/
def decodeErrlookup : List Byte → Except Reject Instr
  | [code] => .ok (.errlookup code)
  | [] => .error .missing
  | _ :: _ :: _ => .error .trailing

/-- The operands of MEASDEC: the timestamp, then the payload. -/
def decodeMeasdec (bs : List Byte) : Except Reject Instr :=
  match readNat bs with
  | some (ts, p) => withPayload p (.measdec p ts)
  | none => .error .badNumber

/-- An OP record: the row's position among the OP rows of spec/opcode_table.json, then the operands (log 2). -/
def decodeOp : List Byte → Except Reject Instr
  | [] => .error .missing
  | sel :: bs =>
    match sel.toNat with
    | 0 => .ok (.stuff bs)
    | 1 => .ok (.unstuff bs)
    | 2 => decodeChkgen bs
    | 3 => decodeChkverify bs
    | 4 => decodeEncode bs
    | 5 => bare .decode bs
    | 6 => decodeExecute bs
    | 7 => bare .consume bs
    | 8 => decodeCfg bs
    | 9 => bare .reset bs
    | 10 => decodeErrlookup bs
    | 11 => withPayload bs (.ackdec bs)
    | 12 => decodeMeasdec bs
    | 13 => bare .rxbyte bs
    | 14 => .ok (.txwrite bs)
    | 15 => bare .rxflush bs
    | _ => .error (.unknownOperation sel)

/-- The decoder. -/
def decode : Format → List Byte → Except Reject Instr
  | .req, bs => decodeReq bs
  | .esc, bs => decodeEsc bs
  | .delim, bs => decodeDelim bs
  | .status, bs => decodeStatus bs
  | .op, bs => decodeOp bs

/-! ### Encoding -/

/-- Writes a number in the form `readNat` reads. The first argument bounds the recursion and is never too small when it
is the number itself. -/
def natBytes : Nat → Nat → List Byte
  | 0, n => [BitVec.ofNat 8 n]
  | f + 1, n => if n < 128 then [BitVec.ofNat 8 n] else BitVec.ofNat 8 (n % 128 + 128) :: natBytes f (n / 128)

/-- The bytes of a number. -/
def writeNat (n : Nat) : List Byte := natBytes n n

/-- A REQ record (30_encoding.md R90, R95, R97). -/
def reqRecord (c : Byte) (p : List Byte) : Format × List Byte := (.req, c :: BitVec.ofNat 8 p.length :: p)

/-- CFG_DECSEL holds 0 for the ACK decoder and 1 for the Measurement Decoder (10_state.md R21). -/
def decoderBit : Decoder → Byte
  | .ack => 0
  | .meas => 1

/-- The operand bytes of CFGWRITE. -/
def cfgBytes : CfgWrite → List Byte
  | .retries v => [0, v]
  | .timeout v => 1 :: writeNat v
  | .backoff v => 2 :: writeNat v
  | .settle v => 3 :: writeNat v
  | .minMeasLen v => [4, v]
  | .decsel i d => [5, BitVec.ofNat 8 i.val, decoderBit d]

/-- The encoder: the record of an operation. -/
def encode : Instr → Format × List Byte
  | .startMeas p => reqRecord 0x00 p
  | .stopMeas p => reqRecord 0x01 p
  | .readMeas p => reqRecord 0x03 p
  | .autoclean p => reqRecord 0x80 p
  | .fanClean p => reqRecord 0x56 p
  | .devInfo p => reqRecord 0xD0 p
  | .devReset p => reqRecord 0xD3 p
  | .esc7E => (.esc, [0x7D, 0x5E])
  | .esc7D => (.esc, [0x7D, 0x5D])
  | .esc11 => (.esc, [0x7D, 0x31])
  | .esc13 => (.esc, [0x7D, 0x33])
  | .marker => (.delim, [0x7E])
  | .status00 => (.status, [0x00])
  | .status01 => (.status, [0x01])
  | .status02 => (.status, [0x02])
  | .status03 => (.status, [0x03])
  | .status04 => (.status, [0x04])
  | .status28 => (.status, [0x28])
  | .status43 => (.status, [0x43])
  | .statusOther code => (.status, [code])
  | .stuff s => (.op, 0 :: s)
  | .unstuff s => (.op, 1 :: s)
  | .chkgen a c l p => (.op, 2 :: a :: c :: l :: p)
  | .chkverify a c l p k => (.op, 3 :: a :: c :: l :: k :: p)
  | .encode a c p => (.op, 4 :: a :: c :: p)
  | .decode => (.op, [5])
  | .execute c p => (.op, 6 :: c :: p)
  | .consume => (.op, [7])
  | .cfgwrite w => (.op, 8 :: cfgBytes w)
  | .reset => (.op, [9])
  | .errlookup code => (.op, [10, code])
  | .ackdec p => (.op, 11 :: p)
  | .measdec p ts => (.op, 12 :: (writeNat ts ++ p))
  | .rxbyte => (.op, [13])
  | .txwrite s => (.op, 14 :: s)
  | .rxflush => (.op, [15])

/-! ### Words of the opcode table -/

/-- The record of a table word. A 16-bit word is an escape pair, the introducer in bits 15..8 (log 5). An 8-bit word is a
command byte with operand bytes of zero if the command table has it, else the marker, else a status byte: the spec gives
some command and status rows the same byte and tells them apart by position only (log 4). -/
def tableWordRecord (nbits w : Nat) : Option (Format × List Byte) :=
  if nbits = 16 then some (.esc, [BitVec.ofNat 8 (w / 256), BitVec.ofNat 8 w])
  else if nbits = 8 then
    let b : Byte := BitVec.ofNat 8 w
    if isCommand b then some (.req, [b, 0])
    else if b = Config.MARKER then some (.delim, [b])
    else some (.status, [b])
  else none

/-- What the decoder reads from a word of spec/opcode_table.json. -/
def decodeTableWord (nbits w : Nat) : Option Instr :=
  match tableWordRecord nbits w with
  | none => none
  | some (f, bs) => (decode f bs).toOption

end Sys2Proof
end

