-- ==== Sys2Proof/Machine/State.lean ====
section
/-! DEFINITION. The state of the engine, of the transport and the clock it observes, and of its ports: plain data. The
register names are those of 10_state.md; notes/assumptions/ has one row per choice. -/

namespace Sys2Proof.Machine

open Sys2Proof

/-- `TM_STATE`, the Transaction Manager state (10_state.md R26). -/
inductive TmState
  | idle
  | start
  | sent
  | await
  | backoff
  | completed
  | deviceError
  | protocolError
  | transportError
  deriving DecidableEq, Repr

/-- `DEC_STATE`, the decode state (10_state.md R27). -/
inductive DecState
  | off
  | hunt
  | addr
  | cmd
  | status
  | drain
  | body
  deriving DecidableEq, Repr

/-- `RES_KIND`, the failure kind (60_exceptions.md R281). `TruncatedPayload` is never written to RES_KIND, so it has no
constructor here. -/
inductive Kind
  | none
  | timeout
  | checksum
  | length
  | escape
  | address
  | command
  | device
  | transport
  deriving DecidableEq, Repr

/-- The configuration registers (10_state.md R21). -/
structure CfgRegs where
  retries : Byte
  timeout : Nat
  backoff : Nat
  settle : Nat
  minMeasLen : Byte
  decsel : Vector Decoder 7
  deriving DecidableEq, Repr

/-- The request operand registers (10_state.md R24). `txPay` lists the elements of TXPAY that hold a value, index 0
upward (log 24). -/
structure ReqRegs where
  cmd : Byte
  txLen : Byte
  txPay : List Byte
  deriving DecidableEq, Repr

/-- The transaction registers (10_state.md R25, R26). -/
structure TxnRegs where
  tmState : TmState
  attRem : Byte
  attempt : Byte
  deadline : Nat
  expAddr : Byte
  expCmd : Byte
  deriving DecidableEq, Repr

/-- The decode registers and flags (10_state.md R27, R28, R29). `rxBuf` lists the elements of RXBUF that hold a value,
index 0 upward (log 24). -/
structure DecRegs where
  decState : DecState
  rxAddr : Byte
  rxCmd : Byte
  rxStatus : Byte
  rxBuf : List Byte
  rxCnt : Nat
  escPend : Bool
  malformed : Bool
  deriving DecidableEq, Repr

/-- The result registers (10_state.md R30). `pay` lists the elements of RES_PAY that hold a value (log 24). -/
structure ResRegs where
  kind : Kind
  status : Byte
  len : Byte
  pay : List Byte
  attempt : Byte
  step : DecState
  expect : Byte
  got : Got
  deriving DecidableEq, Repr

/-- How the transport will answer RxFlush (20_memory.md R68). A failing flush may have dropped some of the oldest bytes
(log 13). -/
inductive FlushAnswer
  | ok
  | error (dropped : Nat)
  deriving DecidableEq, Repr

/-- How the transport will answer TxWrite (20_memory.md R67). A write that answers `error` may have put some bytes on the
line (log 13). -/
inductive WriteAnswer
  | all
  | upTo (n : Nat)
  | error (taken : Nat)
  deriving DecidableEq, Repr

/-- The transport: the receive queue RXQ (10_state.md R32), the transmit stream TX since reset (20_memory.md R60), and how
it will answer the three primitives (93_implementation_defined.md I10). -/
structure Link where
  rxq : List Byte
  tx : List Byte
  flushAnswer : FlushAnswer
  writeAnswer : WriteAnswer
  broken : Bool
  deriving DecidableEq, Repr

/-- The answer of RxByte (20_memory.md R66). -/
inductive RxAnswer
  | byte (b : Byte)
  | timeout
  | error
  deriving DecidableEq, Repr

/-- The answer of TxWrite (20_memory.md R67). -/
inductive TxAnswer
  | count (n : Nat)
  | error
  deriving DecidableEq, Repr

/-- A validated frame, the success result of DECODE (42_frame_codec.md R163). -/
structure Frame where
  address : Byte
  command : Byte
  status : Byte
  payload : List Byte
  deriving DecidableEq, Repr

/-- What a failure records (60_exceptions.md R290): the kind, the decode state at detection and the byte details its cause
gives; `Option.none` where the cause gives no value. -/
structure FailRec where
  kind : Kind
  step : DecState
  expect : Option Byte
  got : Option Got
  status : Option Byte
  deriving DecidableEq, Repr

/-- The result of DECODE (42_frame_codec.md R163). -/
inductive DecResult
  | frame (f : Frame)
  | failed (f : FailRec)
  deriving DecidableEq, Repr

/-- Why the host port does not accept an operation (60_exceptions.md R288). -/
inductive RefuseReason
  | busy
  | illegalCommand
  | payloadTooLong
  | badConfig
  | notDone
  deriving DecidableEq, Repr

/-- The host operations that can be refused (60_exceptions.md R288). -/
inductive HostOp
  | execute (c : Byte) (p : List Byte)
  | cfgwrite (w : CfgWrite)
  | consume
  deriving DecidableEq, Repr

/-- A decoded measurement (45_catalog_and_decoders.md R265, R267). -/
structure Reading where
  timestamp : Nat
  pm1 : Float32Bits
  pm25 : Float32Bits
  pm4 : Float32Bits
  pm10 : Float32Bits
  nc0 : Float32Bits
  nc1 : Float32Bits
  nc2 : Float32Bits
  nc3 : Float32Bits
  nc4 : Float32Bits
  tps : Float32Bits
  deriving DecidableEq, Repr

/-- The context every failed outcome carries (43_transaction.md R214): the command, the attempt, the decode state and the
byte details valid for its kind (60_exceptions.md R290). -/
structure Context where
  cmd : Byte
  attempt : Byte
  step : DecState
  expect : Option Byte
  got : Option Got
  status : Option Byte
  deriving DecidableEq, Repr

/-- The error of a failed outcome (43_transaction.md R214). -/
inductive TxnError
  | truncatedPayload (got : Nat)
  | deviceError (status : Byte) (description : String)
  | protocol (k : Kind)
  | transportFailure
  deriving DecidableEq, Repr

/-- What CONSUME returns (43_transaction.md R214). -/
inductive TxnOutcome
  | completedAck (p : List Byte)
  | completedReading (r : Reading)
  | failed (e : TxnError) (ctx : Context)
  deriving DecidableEq, Repr

/-- The answer of a host or unit operation (00_scope.md R10, R11), each constructor by the rule of its operation. -/
inductive Answer
  | refused (r : RefuseReason)
  | accepted
  | bytes (s : List Byte)
  | malformedEscape
  | checksum (k : Byte)
  | verified
  | checksumMismatch (expect got : Byte)
  | description (d : String)
  | ack (p : List Byte)
  | reading (r : Reading)
  | truncatedPayload (got : Nat)
  | outcome (o : TxnOutcome)
  | received (a : RxAnswer)
  | written (a : TxAnswer)
  | flushed (ok : Bool)
  deriving DecidableEq, Repr

/-- The events of the event port (60_exceptions.md R302). -/
inductive Event
  | attemptStart (cmd attempt : Byte)
  | frameSent (cmd attempt : Byte) (frame : List Byte)
  | attemptFailed (cmd attempt : Byte) (f : FailRec)
  | frameReceived (cmd attempt len : Byte) (payload : List Byte)
  | done (cmd : Byte) (t : TmState)
  | refused (op : HostOp) (r : RefuseReason)
  deriving DecidableEq, Repr

/-- An operation the host has presented: a REQ or an OP record of Decode.lean (log 2, log 3). -/
inductive HostRecord
  | req (bytes : List Byte)
  | op (bytes : List Byte)
  deriving DecidableEq, Repr

/-- One move of one of the four agents (00_scope.md R10; log 1). `device`: the device's bytes reach RXQ. `transport`: how
the transport will answer from now on. `clock`: ticks pass, and how long the next steps linger. -/
inductive Turn
  | host
  | engine
  | device (bytes : List Byte)
  | transport (flush : FlushAnswer) (write : WriteAnswer) (broken : Bool)
  | clock (ticks lapse : Nat)
  deriving DecidableEq, Repr

/-- The whole state. `lapse`: the ticks the next engine step takes beyond the least its rule asks (log 14). `draws`: the
counter of the free values (log 10). -/
structure State where
  cfg : CfgRegs
  req : ReqRegs
  txn : TxnRegs
  dec : DecRegs
  res : ResRegs
  link : Link
  now : Nat
  lapse : Nat
  hostq : List HostRecord
  turns : List Turn
  answer : Option Answer
  events : List Event
  draws : Nat
  deriving DecidableEq, Repr

/-- What stops the machine. Both are stuck states that no state meeting the invariant of Safety.lean reaches; the spec's
own failures are recorded results, never faults (00_scope.md R11). -/
inductive Fault
  /-- Raised by the engine's AWAIT step and by DECODE when TM_STATE = AWAIT and DEC_STATE = D_OFF, for which 10_state.md R27
  has no rule (log 21). Safe. -/
  | decodeOffInAwait
  /-- Raised by CONSUME in COMPLETED when CMD is outside the closed set, so that no CFG_DECSEL is its decoder
  (43_transaction.md R214; log 20). Safe. -/
  | noDecoderForCommand
  deriving DecidableEq, Repr

/-- Why the model has no meaning for what it is asked to do. -/
inductive Refusal
  /-- Raised by an arm of exec that has no meaning yet. Safe. -/
  | notModelled (mnemonic : String)
  /-- Raised by the host's turn for a record that encodes no operation (log 29). Safe. -/
  | undecodable (r : Reject)
  deriving DecidableEq, Repr

/-- The configuration after reset (10_state.md R33). -/
def CfgRegs.reset : CfgRegs :=
  { retries := 3, timeout := 0, backoff := 0, settle := 0, minMeasLen := 40,
    decsel := #v[.ack, .ack, .meas, .ack, .ack, .ack, .ack] }

/-- The request operands after reset: unspecified in 10_state.md R33; DESIGN CHOICE zero, unsafe (log 9). -/
def ReqRegs.reset : ReqRegs := { cmd := 0, txLen := 0, txPay := [] }

/-- The transaction registers after reset (10_state.md R33); DEADLINE and EXP_CMD are DESIGN CHOICE zero, unsafe (log 9,
log 37). -/
def TxnRegs.reset : TxnRegs :=
  { tmState := .idle, attRem := 0, attempt := 0, deadline := 0, expAddr := 0x00, expCmd := 0 }

/-- The decode registers after reset (10_state.md R33); RX_ADDR, RX_CMD and RX_STATUS are DESIGN CHOICE zero, unsafe
(log 9). -/
def DecRegs.reset : DecRegs :=
  { decState := .off, rxAddr := 0, rxCmd := 0, rxStatus := 0, rxBuf := [], rxCnt := 0, escPend := false,
    malformed := false }

/-- The result registers after reset (10_state.md R33); RES_STATUS, RES_LEN, RES_EXPECT and RES_GOT are DESIGN CHOICE
zero, unsafe (log 9). -/
def ResRegs.reset : ResRegs :=
  { kind := .none, status := 0, len := 0, pay := [], attempt := 0, step := .off, expect := 0, got := 0 }

/-- The machine right after reset, with nothing presented and nothing received (10_state.md R33; log 13, log 14). -/
def State.reset : State :=
  { cfg := CfgRegs.reset, req := ReqRegs.reset, txn := TxnRegs.reset, dec := DecRegs.reset, res := ResRegs.reset,
    link := { rxq := [], tx := [], flushAnswer := .ok, writeAnswer := .all, broken := false },
    now := 0, lapse := 0, hostq := [], turns := [], answer := none, events := [], draws := 0 }

/-! ### Updates, one per field -/

/-- Writes the configuration registers. -/
def State.setCfg (s : State) (x : CfgRegs) : State := { s with cfg := x }
/-- Writes the request operand registers. -/
def State.setReq (s : State) (x : ReqRegs) : State := { s with req := x }
/-- Writes the transaction registers. -/
def State.setTxn (s : State) (x : TxnRegs) : State := { s with txn := x }
/-- Writes TM_STATE alone. -/
def State.setTm (s : State) (t : TmState) : State := { s with txn := { s.txn with tmState := t } }
/-- Writes the decode registers. -/
def State.setDec (s : State) (x : DecRegs) : State := { s with dec := x }
/-- Writes the result registers. -/
def State.setRes (s : State) (x : ResRegs) : State := { s with res := x }
/-- Writes the transport. -/
def State.setLink (s : State) (x : Link) : State := { s with link := x }
/-- Writes RXQ alone. -/
def State.setRxq (s : State) (q : List Byte) : State := { s with link := { s.link with rxq := q } }
/-- Writes the time. -/
def State.setNow (s : State) (t : Nat) : State := { s with now := t }
/-- Writes how long the next steps linger. -/
def State.setLapse (s : State) (n : Nat) : State := { s with lapse := n }
/-- Writes the queue of presented operations. -/
def State.setHostq (s : State) (q : List HostRecord) : State := { s with hostq := q }
/-- Writes the list of moves to come. -/
def State.setTurns (s : State) (ts : List Turn) : State := { s with turns := ts }
/-- Writes the answer port. -/
def State.answerWith (s : State) (a : Answer) : State := { s with answer := some a }
/-- Emits one event (60_exceptions.md R302). -/
def State.emit (s : State) (e : Event) : State := { s with events := s.events ++ [e] }
/-- Marks `n` free values as drawn. -/
def State.draw (s : State) (n : Nat) : State := { s with draws := s.draws + n }

end Sys2Proof.Machine
end

