-- ==== Sys2Proof/Machine/Flags.lean ====
section
/-! DEFINITION. The flags of 10_state.md R29: BUSY and DONE, derived from TM_STATE, and ESC_PEND and MALFORMED, written by
the streaming unstuffer (40_stuffing.md R137). -/

namespace Sys2Proof.Machine

/-- `BUSY = (TM_STATE != IDLE)` (10_state.md R29). -/
def State.busy (s : State) : Bool := s.txn.tmState ≠ .idle

/-- The four terminal states of 10_state.md R26. -/
def isTerminal : TmState → Bool
  | .completed => true
  | .deviceError => true
  | .protocolError => true
  | .transportError => true
  | .idle => false
  | .start => false
  | .sent => false
  | .await => false
  | .backoff => false

/-- `DONE = (TM_STATE in {COMPLETED, DEVICE_ERROR, PROTOCOL_ERROR, TRANSPORT_ERROR})` (10_state.md R29). -/
def State.done (s : State) : Bool := isTerminal s.txn.tmState

/-- The engine has a step of its own to take: a transaction is live and not over (70_reset_and_hazards.md R324). -/
def State.active (s : State) : Bool := s.busy && !s.done

/-- The decode state machine is running (10_state.md R27). -/
def State.decoding (s : State) : Bool := s.txn.tmState = .await && s.dec.decState ≠ .off

/-- `push(v)` of 40_stuffing.md R137: RXBUF takes the byte while there is room, RXCNT saturates at 258. -/
def push (v : Byte) (d : DecRegs) : DecRegs :=
  { d with
    rxBuf := if d.rxCnt < Config.RXBUF_SIZE then d.rxBuf ++ [v] else d.rxBuf
    rxCnt := if d.rxCnt < Config.RXCNT_MAX then d.rxCnt + 1 else d.rxCnt }

/-- One region byte through the streaming unstuffer (40_stuffing.md R137). -/
def feed (b : Byte) (d : DecRegs) : DecRegs :=
  if d.escPend then
    match unesc b with
    | some v => push v { d with escPend := false }
    | none => { d with escPend := false, malformed := true }
  else if b = Config.ESC then { d with escPend := true }
  else push b d

/-- The end of the region: an introducer still pending makes it malformed (42_frame_codec.md R171). -/
def closeRegion (d : DecRegs) : DecRegs :=
  if d.escPend then { d with malformed := true, escPend := false } else d

end Sys2Proof.Machine
end

