-- ==== Sys2Proof/Machine/Operands.lean ====
section
/-! DEFINITION. Operand assembly and the pure functions of the units: stuffing (40), checksum (41), frame composition (42),
catalog and decoders (45), and the register encodings the spec numbers (D19). -/

namespace Sys2Proof.Machine

/-! ### Stuffing -/

/-- `stuff(s)` (40_stuffing.md R132). -/
def stuff : List Byte → List Byte
  | [] => []
  | b :: s =>
    match esc b with
    | some c => Config.ESC :: c :: stuff s
    | none => b :: stuff s

/-- `unstuff(s)` (40_stuffing.md R136): none is the failure MalformedEscape. -/
def unstuff : List Byte → Option (List Byte)
  | [] => some []
  | b :: s =>
    if b = Config.ESC then
      match s with
      | [] => none
      | c :: s' =>
        match unesc c with
        | some v => (unstuff s').map (v :: ·)
        | none => none
    else (unstuff s).map (b :: ·)

/-! ### Checksum -/

/-- `checksum(header, payload) = 255 - ((sum(header) + sum(payload)) mod 256)` (41_checksum.md R151). -/
def checksum (header payload : List Byte) : Byte :=
  BitVec.ofNat 8 (255 - (sumBytes header + sumBytes payload) % 256)

/-- CHKVERIFY (41_checksum.md R152): none when the received byte is the expected one, else the expected one. -/
def chkverify (a c l : Byte) (p : List Byte) (received : Byte) : Option Byte :=
  if checksum [a, c, l] p = received then none else some (checksum [a, c, l] p)

/-! ### Frames -/

/-- The length byte of a payload of at most 255 bytes (30_encoding.md R97). -/
def lengthByte (p : List Byte) : Byte := BitVec.ofNat 8 p.length

/-- The unstuffed interior of a request (30_encoding.md R90). -/
def requestInterior (a c : Byte) (p : List Byte) : List Byte :=
  [a, c, lengthByte p] ++ p ++ [checksum [a, c, lengthByte p] p]

/-- `encode(a, c, p)`, the wire bytes of a request (42_frame_codec.md R161). -/
def encodeFrame (a c : Byte) (p : List Byte) : List Byte :=
  [Config.MARKER] ++ stuff (requestInterior a c p) ++ [Config.MARKER]

/-- The frame of the transaction: a function of CMD, TXLEN and TXPAY (10_state.md R20, R24). -/
def requestFrame (r : ReqRegs) : List Byte :=
  encodeFrame Config.DEV_ADDR r.cmd (r.txPay.take r.txLen.toNat)

/-- Element `i` of a buffer; an element that holds no value is a free value (10_state.md R28; log 24). -/
def byteAt (buf : List Byte) (i : Nat) : Byte := buf.getD i (Config.freeElement i)

/-- A failure record of a region check: detected in D_BODY (60_exceptions.md R283 to R285). -/
def bodyFailure (k : Kind) (expect : Option Byte) (got : Option Got) : DecResult :=
  .failed { kind := k, step := .body, expect := expect, got := got, status := none }

/-- Region validation, steps 6 to 9 (42_frame_codec.md R172), over the registers. -/
def validateRegion (d : DecRegs) : DecResult :=
  if d.malformed then bodyFailure .escape none none
  else if d.rxCnt < 2 then
    bodyFailure .length (if d.rxCnt = 1 then some (byteAt d.rxBuf 0) else none) (some 0)
  else if (byteAt d.rxBuf 0).toNat ≠ d.rxCnt - 2 then
    bodyFailure .length (some (byteAt d.rxBuf 0)) (some (BitVec.ofNat 9 (d.rxCnt - 2)))
  else
    let l := byteAt d.rxBuf 0
    let p := (d.rxBuf.drop 1).take l.toNat
    let k := byteAt d.rxBuf (1 + l.toNat)
    match chkverify d.rxAddr d.rxCmd l p k with
    | some e => bodyFailure .checksum (some e) (some (k.zeroExtend 9))
    | none => .frame { address := d.rxAddr, command := d.rxCmd, status := 0x00, payload := p }

/-- The same validation over the raw region (42_frame_codec.md R172, the source's formulation). -/
def regionVerdict (a c : Byte) (raw : List Byte) : DecResult :=
  match unstuff raw with
  | none => bodyFailure .escape none none
  | some u =>
    if u.length < 2 then bodyFailure .length u.head? (some 0)
    else if (byteAt u 0).toNat ≠ u.length - 2 then
      bodyFailure .length (some (byteAt u 0)) (some (BitVec.ofNat 9 (min (u.length - 2) 256)))
    else
      let l := byteAt u 0
      let p := (u.drop 1).take l.toNat
      let k := byteAt u (u.length - 1)
      match chkverify a c l p k with
      | some e => bodyFailure .checksum (some e) (some (k.zeroExtend 9))
      | none => .frame { address := a, command := c, status := 0x00, payload := p }

/-! ### Catalog and payload decoders -/

/-- A hexadecimal digit, upper case (92_eei_decisions.md D21). -/
def hexDigit (n : Nat) : Char :=
  match n with
  | 0 => '0' | 1 => '1' | 2 => '2' | 3 => '3' | 4 => '4' | 5 => '5' | 6 => '6' | 7 => '7'
  | 8 => '8' | 9 => '9' | 10 => 'A' | 11 => 'B' | 12 => 'C' | 13 => 'D' | 14 => 'E' | _ => 'F'

/-- `hex2(code)`: two upper-case digits, most significant first (45_catalog_and_decoders.md R260). -/
def hex2 (code : Byte) : String := String.ofList [hexDigit (code.toNat / 16), hexDigit (code.toNat % 16)]

/-- `errlookup(code)` (45_catalog_and_decoders.md R260; 30_encoding.md R96). The codes 0x01, 0x03, 0x04, 0x28 and 0x43 and
every string but "Unknown command" are PRESUMED (log 23). -/
def errlookup (code : Byte) : String :=
  if code = 0x00 then "No error"
  else if code = 0x01 then "Wrong data length"
  else if code = 0x02 then "Unknown command"
  else if code = 0x03 then "No access right"
  else if code = 0x04 then "Illegal command parameter"
  else if code = 0x28 then "Illegal argument"
  else if code = 0x43 then "Command not allowed in current state"
  else "unknown error 0x" ++ hex2 code

/-- `f32(b0, b1, b2, b3)`: the 32-bit pattern, `b0` most significant (45_catalog_and_decoders.md R268). -/
def f32 (b0 b1 b2 b3 : Byte) : Float32Bits := b0 ++ b1 ++ b2 ++ b3

/-- Field `i` of a measurement payload, bytes `4i .. 4i+3` (45_catalog_and_decoders.md R265). -/
def measField (p : List Byte) (i : Nat) : Float32Bits :=
  f32 (byteAt p (4 * i)) (byteAt p (4 * i + 1)) (byteAt p (4 * i + 2)) (byteAt p (4 * i + 3))

/-- `measdec(p, ts)` under a minimum length (45_catalog_and_decoders.md R265, R266, R267): none is TruncatedPayload. -/
def measdec (minLen : Byte) (p : List Byte) (ts : Nat) : Option Reading :=
  if p.length < minLen.toNat ∨ p.length < Config.READING_BYTES then none
  else
    some
      { timestamp := ts
        pm1 := measField p 0
        pm25 := measField p 1
        pm4 := measField p 2
        pm10 := measField p 3
        nc0 := measField p 4
        nc1 := measField p 5
        nc2 := measField p 6
        nc3 := measField p 7
        nc4 := measField p 8
        tps := measField p 9 }

/-! ### The numbers the spec gives to enumerations (92_eei_decisions.md D19); no rule depends on one -/

/-- The value of TM_STATE (10_state.md R26). -/
def TmState.code : TmState → Nat
  | .idle => 0
  | .start => 1
  | .sent => 2
  | .await => 3
  | .backoff => 4
  | .completed => 5
  | .deviceError => 6
  | .protocolError => 7
  | .transportError => 8

/-- The value of DEC_STATE (10_state.md R27). -/
def DecState.code : DecState → Nat
  | .off => 0
  | .hunt => 1
  | .addr => 2
  | .cmd => 3
  | .status => 4
  | .drain => 5
  | .body => 6

/-- The value of RES_KIND (60_exceptions.md R281). -/
def Kind.code : Kind → Nat
  | .none => 0
  | .timeout => 1
  | .checksum => 2
  | .length => 3
  | .escape => 4
  | .address => 5
  | .command => 6
  | .device => 7
  | .transport => 8

/-- The six transient protocol failures (43_transaction.md R209; 60_exceptions.md R281). -/
def Kind.isTransient : Kind → Bool
  | .timeout => true
  | .checksum => true
  | .length => true
  | .escape => true
  | .address => true
  | .command => true
  | .none => false
  | .device => false
  | .transport => false

end Sys2Proof.Machine
end

