-- ==== Sys2Proof/Machine/Ops.lean ====
section
/-! DEFINITION. The named operations every meaning is built from: the transport primitives (20_memory.md R66 to R68), waits,
the decode rule of each DEC_STATE (42_frame_codec.md R164 to R175), the capture of a failure and the return from one
(60_exceptions.md R290, R295), and acceptance at the host port (43_transaction.md R203). -/

namespace Sys2Proof.Machine

/-! ### Time -/

/-- The ticks a primitive or a delay takes beyond the least its rule asks (93_implementation_defined.md I11, I21; log 14). -/
def linger (s : State) : State := s.setNow (s.now + s.lapse)

/-- `Delay(n)`: at least `n` ticks pass (00_scope.md R8; 60_exceptions.md R298). -/
def delay (n : Nat) (s : State) : State := s.setNow (s.now + n + s.lapse)

/-! ### The transport primitives -/

/-- `RxFlush()` (20_memory.md R68): true is `ok`. -/
def rxFlush (s : State) : Bool × State :=
  match s.link.flushAnswer with
  | .ok => (true, linger (s.setRxq []))
  | .error k => (false, linger (s.setRxq (s.link.rxq.drop k)))

/-- `TxWrite(f)` (20_memory.md R67): the bytes taken are appended to TX. -/
def txWrite (f : List Byte) (s : State) : TxAnswer × State :=
  match s.link.writeAnswer with
  | .all => (.count f.length, linger (s.setLink { s.link with tx := s.link.tx ++ f }))
  | .upTo n => (.count (min n f.length), linger (s.setLink { s.link with tx := s.link.tx ++ f.take n }))
  | .error k => (.error, linger (s.setLink { s.link with tx := s.link.tx ++ f.take k }))

/-- `RxByte()` (20_memory.md R66): broken first, then the deadline, then the oldest byte. With an empty queue the call
waits: none, and nothing has changed, while other agents have moves to take; the wait ends at the deadline when none has
(log 15). -/
def rxByte (s : State) : Option RxAnswer × State :=
  if s.link.broken then (some .error, linger s)
  else if s.txn.deadline ≤ s.now then (some .timeout, linger s)
  else
    match s.link.rxq with
    | b :: q => (some (.byte b), (s.setRxq q).setNow (s.now + 1 + s.lapse))
    | [] =>
      match s.turns with
      | [] => (some .timeout, s.setNow (s.txn.deadline + s.lapse))
      | _ :: _ => (none, s)

/-! ### DECODE -/

/-- DECODE start (42_frame_codec.md R164): the counters and flags are cleared; RX_ADDR, RX_CMD and RX_STATUS hold no value,
so each is a free value, and no element of RXBUF holds one (log 10, log 24). -/
def startDecode (n : Nat) : DecRegs :=
  { decState := .hunt, rxAddr := Config.freeByte n, rxCmd := Config.freeByte (n + 1),
    rxStatus := Config.freeByte (n + 2), rxBuf := [], rxCnt := 0, escPend := false, malformed := false }

/-- DECODE ends: DEC_STATE becomes D_OFF and the result is returned. -/
def decEnd (d : DecRegs) (r : DecResult) : DecRegs × Option DecResult := ({ d with decState := .off }, some r)

/-- RES_STATUS of a Timeout or transport failure: the status byte, once it has been read (10_state.md R30;
60_exceptions.md R282; log 32). -/
def statusSoFar (d : DecRegs) : Option Byte :=
  match d.decState with
  | .drain => some d.rxStatus
  | .body => some d.rxStatus
  | .off => none
  | .hunt => none
  | .addr => none
  | .cmd => none
  | .status => none

/-- The failure of a decode whose RxByte answered no byte (42_frame_codec.md R174, R175). -/
def stalled (k : Kind) (d : DecRegs) : DecResult :=
  .failed { kind := k, step := d.decState, expect := none, got := none, status := statusSoFar d }

/-- A header byte that differs from the expected one (42_frame_codec.md R166, R167). -/
def mismatch (k : Kind) (step : DecState) (expect got : Byte) : DecResult :=
  .failed { kind := k, step := step, expect := some expect, got := some (got.zeroExtend 9), status := none }

/-- The device-level failure of a drained response (42_frame_codec.md R169; 60_exceptions.md R289). -/
def deviceFailure (status : Byte) : DecResult :=
  .failed { kind := .device, step := .drain, expect := none, got := none, status := some status }

/-- The rule of the current DEC_STATE for a byte read (42_frame_codec.md R165 to R171): the registers after it, and the
result if the byte decides it. -/
def decodeByte (expAddr expCmd b : Byte) (d : DecRegs) : DecRegs × Option DecResult :=
  match d.decState with
  | .off => (d, none)
  | .hunt => (if b = Config.MARKER then { d with decState := .addr } else d, none)
  | .addr =>
    if b = expAddr then ({ d with rxAddr := b, decState := .cmd }, none)
    else decEnd { d with rxAddr := b } (mismatch .address .addr expAddr b)
  | .cmd =>
    if b = expCmd then ({ d with rxCmd := b, decState := .status }, none)
    else decEnd { d with rxCmd := b } (mismatch .command .cmd expCmd b)
  | .status => ({ d with rxStatus := b, decState := if b = 0x00 then .body else .drain }, none)
  | .drain => if b = Config.MARKER then decEnd d (deviceFailure d.rxStatus) else (d, none)
  | .body =>
    if b = Config.MARKER then decEnd (closeRegion d) (validateRegion (closeRegion d)) else (feed b d, none)

/-- One answer of RxByte applied to the decode registers (42_frame_codec.md R177). -/
def applyAnswer (expAddr expCmd : Byte) (a : RxAnswer) (d : DecRegs) : DecRegs × Option DecResult :=
  match a with
  | .byte b => decodeByte expAddr expCmd b d
  | .timeout => decEnd d (stalled .timeout d)
  | .error => decEnd d (stalled .transport d)

/-! ### Failure capture and return -/

/-- What is recorded when an attempt fails (60_exceptions.md R290). A byte detail the cause gives no value is a free value
(93_implementation_defined.md I4; log 11). -/
def recordFailure (f : FailRec) (s : State) : State :=
  ((s.setRes
      { s.res with
        kind := f.kind
        attempt := s.txn.attempt
        step := f.step
        expect := f.expect.getD (Config.freeByte s.draws)
        got := f.got.getD (Config.freeGot (s.draws + 1))
        status := f.status.getD (Config.freeByte (s.draws + 2)) }).setDec
    { s.dec with decState := .off }).draw 3

/-- Where control goes after a failure (43_transaction.md R209, R210, R211). -/
def failureTarget (k : Kind) (attRem : Byte) : TmState :=
  match k with
  | .device => .deviceError
  | .transport => .transportError
  | _ => if attRem = 0 then .protocolError else .backoff

/-- Entering a state of the Transaction Manager: a terminal one emits DONE, the last event of its step (60_exceptions.md
R302; log 33). -/
def enter (t : TmState) (s : State) : State :=
  if isTerminal t then (s.setTm t).emit (.done s.req.cmd t) else s.setTm t

/-- Taking a failure: record it, report it, go where its class goes (60_exceptions.md R290). -/
def takeFailure (f : FailRec) (s : State) : State :=
  enter (failureTarget f.kind s.txn.attRem)
    ((recordFailure f s).emit (.attemptFailed s.req.cmd s.txn.attempt f))

/-- `fail_transport()` outside decode (43_transaction.md R211): RES_STEP is D_OFF. -/
def failTransport (s : State) : State :=
  takeFailure { kind := .transport, step := .off, expect := none, got := none, status := none } s

/-- Success: the validated frame goes to the result registers (43_transaction.md R208); RES_EXPECT and RES_GOT are not
named there and stay (log 12). -/
def takeFrame (f : Frame) (s : State) : State :=
  enter .completed
    ((s.setRes
        { s.res with
          kind := .none
          status := 0x00
          len := lengthByte f.payload
          pay := f.payload
          attempt := s.txn.attempt
          step := .off }).emit
      (.frameReceived s.req.cmd s.txn.attempt (lengthByte f.payload) f.payload))

/-- Classification of a decode result (43_transaction.md R207 to R211). -/
def conclude (r : DecResult) (s : State) : State :=
  match r with
  | .frame f => takeFrame f s
  | .failed f => takeFailure f s

/-- The registers after one decode answer, and the classification if it decided the result. -/
def settle (p : DecRegs × Option DecResult) (s : State) : State :=
  match p.2 with
  | none => s.setDec p.1
  | some r => conclude r (s.setDec p.1)

/-- One decode answer in the running engine. -/
def receiveAnswer (a : RxAnswer) (s : State) : State := settle (applyAnswer s.txn.expAddr s.txn.expCmd a s.dec) s

/-- What one call of RxByte in AWAIT brings: its answer, or nothing while the call waits. -/
def receive (a : Option RxAnswer) (s : State) : State :=
  match a with
  | some a => receiveAnswer a s
  | none => s

/-- A byte of the wire. While a decode runs it is the byte RxByte answered and the rule of DEC_STATE applies; otherwise no
rule reads it and it waits in RXQ (10_state.md R32; log 7). -/
def wireByte (b : Byte) (s : State) : State :=
  if s.decoding then receiveAnswer (.byte b) s else s.setRxq (s.link.rxq ++ [b])

/-- An escape pair of the wire, its introducer and its code. In a region whose introducer has been read already
(ESC_PEND) only the code is left to read. Where the introducer decides the decode, the code stays unread at the head of RXQ
(42_frame_codec.md R176; log 8). -/
def wireEscape (code : Byte) (s : State) : State :=
  if s.decoding then
    if s.dec.decState = .body ∧ s.dec.escPend = true then wireByte code s
    else
      let s1 := wireByte Config.ESC s
      if s1.decoding then wireByte code s1 else s1.setRxq (code :: s1.link.rxq)
  else s.setRxq (s.link.rxq ++ [Config.ESC, code])

/-- One step of DECODE (42_frame_codec.md R163; 43_transaction.md R207): one RxByte and the rule of DEC_STATE. Outside AWAIT
no decode runs and nothing happens (log 22). -/
def decodeStep (s : State) : Host.Outcome State Fault Refusal :=
  if s.txn.tmState ≠ .await then .next s
  else if s.dec.decState = .off then .fault .decodeOffInAwait
  else .next (receive (rxByte s).1 (rxByte s).2)

/-! ### The host port -/

/-- A refusal: no register changes, no primitive is called, only REFUSED is emitted (60_exceptions.md R288; log 18). -/
def refuse (op : HostOp) (r : RefuseReason) (s : State) : State := (s.answerWith (.refused r)).emit (.refused op r)

/-- The acceptance checks of EXECUTE, in their order (43_transaction.md R203): the first that fails. -/
def executeRefusal (c : Byte) (p : List Byte) (s : State) : Option RefuseReason :=
  if s.busy then some .busy
  else if !isCommand c then some .illegalCommand
  else if p.length > Config.MAX_PAYLOAD then some .payloadTooLong
  else if s.cfg.retries = 0 ∨ s.cfg.timeout = 0 then some .badConfig
  else none

/-- The effect of an accepted EXECUTE (43_transaction.md R204). -/
def acceptExecute (c : Byte) (p : List Byte) (s : State) : State :=
  ((s.setReq { cmd := c, txLen := lengthByte p, txPay := p }).setTxn
      { s.txn with
        expAddr := Config.DEV_ADDR
        expCmd := c
        attRem := s.cfg.retries
        attempt := 0
        tmState := .start }).answerWith .accepted

/-- EXECUTE(command, payload) (43_transaction.md R202). -/
def executeOp (c : Byte) (p : List Byte) (s : State) : State :=
  match executeRefusal c p s with
  | some r => refuse (.execute c p) r s
  | none => acceptExecute c p s

/-- The decoder registered for a command byte: `CFG_DECSEL[index]` (43_transaction.md R214; 45_catalog_and_decoders.md
R264). -/
def decoderFor (cfg : CfgRegs) (c : Byte) : Option Decoder := (commandIndex c).map (fun i => cfg.decsel[i])

/-- The byte details valid for the recorded kind (60_exceptions.md R290). An empty region (RXCNT = 0) gives a
LengthMismatch no expected value (log 31). -/
def resultContext (s : State) : Context :=
  { cmd := s.req.cmd
    attempt := s.res.attempt
    step := s.res.step
    expect :=
      match s.res.kind with
      | .checksum => some s.res.expect
      | .address => some s.res.expect
      | .command => some s.res.expect
      | .length => if s.dec.rxCnt = 0 then none else some s.res.expect
      | _ => none
    got :=
      match s.res.kind with
      | .checksum => some s.res.got
      | .address => some s.res.got
      | .command => some s.res.got
      | .length => some s.res.got
      | _ => none
    status :=
      match s.res.kind with
      | .device => some s.res.status
      | .timeout => if s.res.step = .drain ∨ s.res.step = .body then some s.res.status else none
      | .transport => if s.res.step = .drain ∨ s.res.step = .body then some s.res.status else none
      | .none => some s.res.status
      | _ => none }

/-- The payload of the validated frame, `RES_PAY[0 .. RES_LEN]` (43_transaction.md R214). -/
def resultPayload (s : State) : List Byte := s.res.pay.take s.res.len.toNat

/-- The outcome of a completed transaction through the registered decoder (43_transaction.md R214). -/
def deliver (d : Decoder) (s : State) : TxnOutcome :=
  match d with
  | .ack => .completedAck (resultPayload s)
  | .meas =>
    match measdec s.cfg.minMeasLen (resultPayload s) (Config.captureTime s.draws) with
    | some r => .completedReading r
    | none => .failed (.truncatedPayload (resultPayload s).length) (resultContext s)

/-- CONSUME, the return from a terminal state (43_transaction.md R213, R214; 60_exceptions.md R295). The timestamp a Reading
needs is drawn (log 25). -/
def consumeOp (s : State) : Host.Outcome State Fault Refusal :=
  match s.txn.tmState with
  | .completed =>
    match decoderFor s.cfg s.req.cmd with
    | some d => .next (((s.answerWith (.outcome (deliver d s))).setTm .idle).draw 1)
    | none => .fault .noDecoderForCommand
  | .deviceError =>
    .next ((s.answerWith
      (.outcome (.failed (.deviceError s.res.status (errlookup s.res.status)) (resultContext s)))).setTm .idle)
  | .protocolError => .next ((s.answerWith (.outcome (.failed (.protocol s.res.kind) (resultContext s)))).setTm .idle)
  | .transportError => .next ((s.answerWith (.outcome (.failed .transportFailure (resultContext s)))).setTm .idle)
  | .idle => .next (refuse .consume .notDone s)
  | .start => .next (refuse .consume .notDone s)
  | .sent => .next (refuse .consume .notDone s)
  | .await => .next (refuse .consume .notDone s)
  | .backoff => .next (refuse .consume .notDone s)

/-- The register write of CFGWRITE (10_state.md R23). -/
def writeCfg (w : CfgWrite) (c : CfgRegs) : CfgRegs :=
  match w with
  | .retries v => { c with retries := v }
  | .timeout v => { c with timeout := v }
  | .backoff v => { c with backoff := v }
  | .settle v => { c with settle := v }
  | .minMeasLen v => { c with minMeasLen := v }
  | .decsel i d => { c with decsel := c.decsel.set i d }

end Sys2Proof.Machine
end

