-- ==== Sys2Proof/Machine/Commands.lean ====
section
/-! DEFINITION. The seven commands (44_commands.md): each is EXECUTE of its command byte and nothing more (R240). -/

namespace Sys2Proof.Machine

/-- START_MEAS (44_commands.md R241). -/
def execStartMeas (p : List Byte) (s : State) : Host.Outcome State Fault Refusal := .next (executeOp 0x00 p s)

/-- STOP_MEAS (44_commands.md R242). -/
def execStopMeas (p : List Byte) (s : State) : Host.Outcome State Fault Refusal := .next (executeOp 0x01 p s)

/-- READ_MEAS (44_commands.md R243). -/
def execReadMeas (p : List Byte) (s : State) : Host.Outcome State Fault Refusal := .next (executeOp 0x03 p s)

/-- AUTOCLEAN (44_commands.md R244). -/
def execAutoclean (p : List Byte) (s : State) : Host.Outcome State Fault Refusal := .next (executeOp 0x80 p s)

/-- FAN_CLEAN (44_commands.md R245). -/
def execFanClean (p : List Byte) (s : State) : Host.Outcome State Fault Refusal := .next (executeOp 0x56 p s)

/-- DEV_INFO (44_commands.md R246). -/
def execDevInfo (p : List Byte) (s : State) : Host.Outcome State Fault Refusal := .next (executeOp 0xD0 p s)

/-- DEV_RESET (44_commands.md R247): it resets the device, not the engine. -/
def execDevReset (p : List Byte) (s : State) : Host.Outcome State Fault Refusal := .next (executeOp 0xD3 p s)

end Sys2Proof.Machine
end

