-- ==== Sys2Proof/Machine/HostPort.lean ====
section
/-! DEFINITION. The operations of the host port: EXECUTE, CONSUME (43), CFGWRITE (10_state.md R23), RESET (70, R320). -/

namespace Sys2Proof.Machine

/-- EXECUTE (43_transaction.md R202 to R204). -/
def execExecute (c : Byte) (p : List Byte) (s : State) : Host.Outcome State Fault Refusal := .next (executeOp c p s)

/-- CONSUME (43_transaction.md R213). -/
def execConsume (s : State) : Host.Outcome State Fault Refusal := consumeOp s

/-- CFGWRITE (10_state.md R23): refused while TM_STATE is not IDLE; an illegal value is stored. -/
def execCfgwrite (w : CfgWrite) (s : State) : Host.Outcome State Fault Refusal :=
  if s.busy then .next (refuse (.cfgwrite w) .busy s)
  else .next ((s.setCfg (writeCfg w s.cfg)).answerWith .accepted)

/-- RESET (70_reset_and_hazards.md R320, R321): every register of the engine takes its reset value, in every state. RXQ and
`now` are not touched; TX counts from here (20_memory.md R60; log 16). No event is emitted (log 17). -/
def execReset (s : State) : Host.Outcome State Fault Refusal :=
  .next
    ((((((s.setCfg CfgRegs.reset).setReq ReqRegs.reset).setTxn TxnRegs.reset).setDec DecRegs.reset).setRes
        ResRegs.reset).setLink { s.link with tx := [] } |>.answerWith .accepted)

end Sys2Proof.Machine
end

