-- ==== Sys2Proof/Machine/Transport.lean ====
section
/-! DEFINITION. The transport primitives as operations: RXBYTE, TXWRITE, RXFLUSH (20_memory.md R65 to R68). -/

namespace Sys2Proof.Machine

/-- RXBYTE (20_memory.md R66). While the call waits it has not answered: the operation stays the first one presented, so
that the host's next move makes the call again, and nothing else changes (log 15). Called before an attempt has armed
DEADLINE it reads the value chosen for reset, DESIGN CHOICE 0, and so times out on a sound transport (log 37). -/
def execRxbyte (s : State) : Host.Outcome State Fault Refusal :=
  match (rxByte s).1 with
  | some a => .next ((rxByte s).2.answerWith (.received a))
  | none => .next (s.setHostq (.op (encode .rxbyte).2 :: s.hostq))

/-- TXWRITE (20_memory.md R67). The rule gives it whole encoded frames only; that any other byte sequence is written like one
is DESIGN CHOICE, unsafe (log 38). -/
def execTxwrite (x : List Byte) (s : State) : Host.Outcome State Fault Refusal :=
  .next ((txWrite x s).2.answerWith (.written (txWrite x s).1))

/-- RXFLUSH (20_memory.md R68). -/
def execRxflush (s : State) : Host.Outcome State Fault Refusal :=
  .next ((rxFlush s).2.answerWith (.flushed (rxFlush s).1))

end Sys2Proof.Machine
end

