-- ==== Sys2Proof/Machine/Units.lean ====
section
/-! DEFINITION. The unit operations: STUFF, UNSTUFF (40), CHKGEN, CHKVERIFY (41), ENCODE, DECODE (42), ERRLOOKUP, ACKDEC,
MEASDEC (45). All but DECODE are combinational: they answer and change no register. -/

namespace Sys2Proof.Machine

/-- STUFF (40_stuffing.md R132): total. -/
def execStuff (x : List Byte) (s : State) : Host.Outcome State Fault Refusal := .next (s.answerWith (.bytes (stuff x)))

/-- UNSTUFF (40_stuffing.md R136): the bytes, or MalformedEscape. -/
def execUnstuff (x : List Byte) (s : State) : Host.Outcome State Fault Refusal :=
  match unstuff x with
  | some y => .next (s.answerWith (.bytes y))
  | none => .next (s.answerWith .malformedEscape)

/-- CHKGEN (41_checksum.md R151): total. -/
def execChkgen (a c l : Byte) (p : List Byte) (s : State) : Host.Outcome State Fault Refusal :=
  .next (s.answerWith (.checksum (checksum [a, c, l] p)))

/-- CHKVERIFY (41_checksum.md R152): pass, or ChecksumMismatch with the expected and the received byte. -/
def execChkverify (a c l : Byte) (p : List Byte) (k : Byte) (s : State) : Host.Outcome State Fault Refusal :=
  match chkverify a c l p k with
  | none => .next (s.answerWith .verified)
  | some e => .next (s.answerWith (.checksumMismatch e k))

/-- ENCODE (42_frame_codec.md R161). A payload over 255 bytes cannot be encoded (30_encoding.md R104; log 26). -/
def execEncode (a c : Byte) (p : List Byte) (s : State) : Host.Outcome State Fault Refusal :=
  if p.length ≤ Config.MAX_PAYLOAD then .next (s.answerWith (.bytes (encodeFrame a c p)))
  else .next (s.answerWith (.refused .payloadTooLong))

/-- DECODE (42_frame_codec.md R163 to R175): one step of it, as the engine runs it in AWAIT (43_transaction.md R207). -/
def execDecode (s : State) : Host.Outcome State Fault Refusal := decodeStep s

/-- ERRLOOKUP (45_catalog_and_decoders.md R260): never fails. -/
def execErrlookup (code : Byte) (s : State) : Host.Outcome State Fault Refusal :=
  .next (s.answerWith (.description (errlookup code)))

/-- ACKDEC (45_catalog_and_decoders.md R263): the payload unchanged. -/
def execAckdec (p : List Byte) (s : State) : Host.Outcome State Fault Refusal := .next (s.answerWith (.ack p))

/-- MEASDEC (45_catalog_and_decoders.md R265): a Reading, or TruncatedPayload. -/
def execMeasdec (p : List Byte) (ts : Nat) (s : State) : Host.Outcome State Fault Refusal :=
  match measdec s.cfg.minMeasLen p ts with
  | some r => .next (s.answerWith (.reading r))
  | none => .next (s.answerWith (.truncatedPayload p.length))

end Sys2Proof.Machine
end

