-- ==== Sys2Proof/Machine/Wire.lean ====
section
/-! DEFINITION. The rows that stand for bytes of the wire: the escape pairs (30_encoding.md R94), the marker (R93) and the
status byte of a response (R96, R103). Each is the arrival of its bytes at the decode (42_frame_codec.md R165 to R171). -/

namespace Sys2Proof.Machine

/-- ESC_7E: 7D 5E stands for 0x7E (30_encoding.md R94). -/
def execEsc7E (s : State) : Host.Outcome State Fault Refusal := .next (wireEscape 0x5E s)

/-- ESC_7D: 7D 5D stands for 0x7D (30_encoding.md R94). -/
def execEsc7D (s : State) : Host.Outcome State Fault Refusal := .next (wireEscape 0x5D s)

/-- ESC_11: 7D 31 stands for 0x11 (30_encoding.md R94). -/
def execEsc11 (s : State) : Host.Outcome State Fault Refusal := .next (wireEscape 0x31 s)

/-- ESC_13: 7D 33 stands for 0x13 (30_encoding.md R94). -/
def execEsc13 (s : State) : Host.Outcome State Fault Refusal := .next (wireEscape 0x33 s)

/-- MARKER: the delimiter, recognised by value alone (30_encoding.md R93; 42_frame_codec.md R165, R169, R171). -/
def execMarker (s : State) : Host.Outcome State Fault Refusal := .next (wireByte Config.MARKER s)

/-- STATUS_00: success (42_frame_codec.md R168). -/
def execStatus00 (s : State) : Host.Outcome State Fault Refusal := .next (wireByte 0x00 s)

/-- STATUS_01 (30_encoding.md R96; 42_frame_codec.md R168). -/
def execStatus01 (s : State) : Host.Outcome State Fault Refusal := .next (wireByte 0x01 s)

/-- STATUS_02 (30_encoding.md R96; 42_frame_codec.md R168). -/
def execStatus02 (s : State) : Host.Outcome State Fault Refusal := .next (wireByte 0x02 s)

/-- STATUS_03 (30_encoding.md R96; 42_frame_codec.md R168). -/
def execStatus03 (s : State) : Host.Outcome State Fault Refusal := .next (wireByte 0x03 s)

/-- STATUS_04 (30_encoding.md R96; 42_frame_codec.md R168). -/
def execStatus04 (s : State) : Host.Outcome State Fault Refusal := .next (wireByte 0x04 s)

/-- STATUS_28 (30_encoding.md R96; 42_frame_codec.md R168). -/
def execStatus28 (s : State) : Host.Outcome State Fault Refusal := .next (wireByte 0x28 s)

/-- STATUS_43 (30_encoding.md R96; 42_frame_codec.md R168). -/
def execStatus43 (s : State) : Host.Outcome State Fault Refusal := .next (wireByte 0x43 s)

/-- STATUS_OTHER: any code the table does not list; not illegal (30_encoding.md R103). -/
def execStatusOther (code : Byte) (s : State) : Host.Outcome State Fault Refusal := .next (wireByte code s)

end Sys2Proof.Machine
end

