-- ==== Sys2Proof/Machine/Dispatch.lean ====
section
/-! DEFINITION. The meaning of every operation: one arm per constructor of Instr. -/

namespace Sys2Proof.Machine

def exec (i : Instr) (s : State) : Host.Outcome State Fault Refusal :=
  match i with
  | .startMeas p => Sys2Proof.Machine.execStartMeas p s
  | .stopMeas p => Sys2Proof.Machine.execStopMeas p s
  | .readMeas p => Sys2Proof.Machine.execReadMeas p s
  | .autoclean p => Sys2Proof.Machine.execAutoclean p s
  | .fanClean p => Sys2Proof.Machine.execFanClean p s
  | .devInfo p => Sys2Proof.Machine.execDevInfo p s
  | .devReset p => Sys2Proof.Machine.execDevReset p s
  | .esc7E => Sys2Proof.Machine.execEsc7E s
  | .esc7D => Sys2Proof.Machine.execEsc7D s
  | .esc11 => Sys2Proof.Machine.execEsc11 s
  | .esc13 => Sys2Proof.Machine.execEsc13 s
  | .marker => Sys2Proof.Machine.execMarker s
  | .status00 => Sys2Proof.Machine.execStatus00 s
  | .status01 => Sys2Proof.Machine.execStatus01 s
  | .status02 => Sys2Proof.Machine.execStatus02 s
  | .status03 => Sys2Proof.Machine.execStatus03 s
  | .status04 => Sys2Proof.Machine.execStatus04 s
  | .status28 => Sys2Proof.Machine.execStatus28 s
  | .status43 => Sys2Proof.Machine.execStatus43 s
  | .statusOther code => Sys2Proof.Machine.execStatusOther code s
  | .stuff x => Sys2Proof.Machine.execStuff x s
  | .unstuff x => Sys2Proof.Machine.execUnstuff x s
  | .chkgen a c l p => Sys2Proof.Machine.execChkgen a c l p s
  | .chkverify a c l p k => Sys2Proof.Machine.execChkverify a c l p k s
  | .encode a c p => Sys2Proof.Machine.execEncode a c p s
  | .decode => Sys2Proof.Machine.execDecode s
  | .execute c p => Sys2Proof.Machine.execExecute c p s
  | .consume => Sys2Proof.Machine.execConsume s
  | .cfgwrite w => Sys2Proof.Machine.execCfgwrite w s
  | .reset => Sys2Proof.Machine.execReset s
  | .errlookup code => Sys2Proof.Machine.execErrlookup code s
  | .ackdec p => Sys2Proof.Machine.execAckdec p s
  | .measdec p ts => Sys2Proof.Machine.execMeasdec p ts s
  | .rxbyte => Sys2Proof.Machine.execRxbyte s
  | .txwrite x => Sys2Proof.Machine.execTxwrite x s
  | .rxflush => Sys2Proof.Machine.execRxflush s

end Sys2Proof.Machine
end

