-- ==== Sys2Proof/Machine/Transaction.lean ====
section
/-! DEFINITION. The engine's own steps of a transaction that no row of the table stands for: START, SENT, BACKOFF
(43_transaction.md R205, R206, R212). -/

namespace Sys2Proof.Machine

/-- The counters move at the start of an attempt, before the flush (43_transaction.md R205; 92_eei_decisions.md D31). ATT_REM
is at least 1 whenever the step runs, so the subtraction does not wrap (41_checksum.md R155; log 28). -/
def beginAttempt (s : State) : State :=
  (s.setTxn { s.txn with attempt := s.txn.attempt + 1, attRem := s.txn.attRem - 1 }).emit
    (.attemptStart s.req.cmd (s.txn.attempt + 1))

/-- The write of an attempt: a short write or an error is a transport failure (43_transaction.md R205, R211). -/
def sendRequest (s : State) : State :=
  if (txWrite (requestFrame s.req) s).1 = .count (requestFrame s.req).length then
    ((txWrite (requestFrame s.req) s).2.emit (.frameSent s.req.cmd s.txn.attempt (requestFrame s.req))).setTm .sent
  else failTransport (txWrite (requestFrame s.req) s).2

/-- The step in START: flush, encode, write (43_transaction.md R205). If the flush fails nothing is written. -/
def startStep (s : State) : State :=
  if (rxFlush (beginAttempt s)).1 then sendRequest (rxFlush (beginAttempt s)).2
  else failTransport (rxFlush (beginAttempt s)).2

/-- The step in SENT: settle, arm the deadline from the time after the settle delay, start the decode
(43_transaction.md R206). -/
def sentStep (s : State) : State :=
  let s1 := delay s.cfg.settle s
  ((s1.setTxn { s1.txn with deadline := s1.now + s1.cfg.timeout, tmState := .await }).setDec
    (startDecode s1.draws)).draw 3

/-- The step in BACKOFF: the fixed delay, then the next attempt (43_transaction.md R212). -/
def backoffStep (s : State) : State := (delay s.cfg.backoff s).setTm .start

end Sys2Proof.Machine
end

