-- ==== Sys2Proof/Machine/Fetch.lean ====
section
/-! DEFINITION. What is taken next: the turn of an agent (00_scope.md R10), the operation the host has presented
(30_encoding.md R105), the wire bytes the decode reads (42_frame_codec.md R163 to R171). TM_STATE and DEC_STATE are the
block's program counter (00_scope.md R9): they say where the next operation comes from and what a wire byte is. -/

namespace Sys2Proof.Machine

/-- The next move. With no move listed the engine runs while a transaction is live, as the blocking call of the source does;
else the host's next operation is taken (log 1). -/
def nextTurn (s : State) : Turn × State :=
  match s.turns with
  | t :: ts => (t, s.setTurns ts)
  | [] => (if s.active then .engine else .host, s)

/-- The operation of a presented record. A command byte outside the closed set is an EXECUTE, which refuses it
(30_encoding.md R100; log 19). -/
def hostInstr (r : HostRecord) : Except Reject Instr :=
  match r with
  | .op bs => decode .op bs
  | .req bs =>
    match decode .req bs with
    | .error (.illegalCommand c p) => .ok (.execute c p)
    | x => x

/-- The operation may be performed at a move of the host. DECODE is the engine's own step (42_frame_codec.md R163): a host
that could perform it would move a live transaction, and no transition out of a non-terminal state is the host's
(43_transaction.md R201, R217; log 22). -/
def hostPerforms (i : Instr) : Bool := i ≠ .decode

/-- The record a wire byte completes, by DEC_STATE: the status byte in D_STATUS; elsewhere the marker; in D_BODY after an
introducer the escape pair. Other bytes complete no record of the table (42_frame_codec.md R165 to R171). -/
def wireRecord (d : DecRegs) (b : Byte) : Option (Format × List Byte) :=
  if d.decState = .status then some (.status, [b])
  else if b = Config.MARKER then some (.delim, [b])
  else if d.decState = .body ∧ d.escPend = true then some (.esc, [Config.ESC, b])
  else none

/-- The wire operation the engine's RxByte reads in AWAIT, and the state with its byte consumed. -/
def fetchWire (s : State) : Option (Instr × State) :=
  if s.dec.decState = .off then none
  else
    match (rxByte s).1 with
    | some (.byte b) =>
      match wireRecord s.dec b with
      | some (f, bs) => ((decode f bs).toOption).map (fun i => (i, (rxByte s).2))
      | none => none
    | some .timeout => none
    | some .error => none
    | none => none

/-! ### Placing a record where the next step takes it (log 6) -/

/-- Makes the next step the engine's, in AWAIT at a decode state, with bytes waiting in RXQ before the deadline. -/
def placeWire (st : DecState) (pend : Bool) (q : List Byte) (s : State) : State :=
  (((s.setTxn { s.txn with tmState := .await, deadline := s.now + 1 }).setDec
      { s.dec with decState := st, escPend := pend }).setLink
    { s.link with rxq := q ++ s.link.rxq, broken := false }).setTurns (.engine :: s.turns)

/-- Makes the next step the host's, with a record first in the queue. -/
def placeHost (r : HostRecord) (s : State) : State := (s.setHostq (r :: s.hostq)).setTurns (.host :: s.turns)

/-- Places a record of a format. The introducer of an escape pair counts as read. -/
def placeRecord (f : Format) (bs : List Byte) (s : State) : State :=
  match f with
  | .req => placeHost (.req bs) s
  | .op => placeHost (.op bs) s
  | .esc => placeWire .body true (bs.drop 1) s
  | .delim => placeWire .hunt false bs s
  | .status => placeWire .status false bs s

/-- Places a word of the opcode table. -/
def placeWord (nbits w : Nat) (s : State) : State :=
  match tableWordRecord nbits w with
  | some (f, bs) => placeRecord f bs s
  | none => s

end Sys2Proof.Machine
end

