-- ==== Sys2Proof/Machine/Step.lean ====
section
/-! DEFINITION. One step of the machine: one move of one agent (00_scope.md R10). -/

namespace Sys2Proof.Machine

/-- The host's move: the oldest operation it has presented is taken (30_encoding.md R105). A DECODE is taken and not performed
(log 22). -/
def hostStep (s : State) : Host.Outcome State Fault Refusal :=
  match s.hostq with
  | [] => .next s
  | r :: rest =>
    match hostInstr r with
    | .ok i => if hostPerforms i then exec i (s.setHostq rest) else .next (s.setHostq rest)
    | .error e => .refused (.undecodable e)

/-- The engine's move (43_transaction.md R201). In AWAIT it reads one byte: if that completes a wire operation of the table
the operation runs, else DECODE does. In IDLE and in the terminal states it performs no step (70_reset_and_hazards.md
R320, R324). -/
def engineStep (s : State) : Host.Outcome State Fault Refusal :=
  match s.txn.tmState with
  | .start => .next (startStep s)
  | .sent => .next (sentStep s)
  | .await =>
    match fetchWire s with
    | some (i, s') => exec i s'
    | none => exec .decode s
  | .backoff => .next (backoffStep s)
  | .idle => .next s
  | .completed => .next s
  | .deviceError => .next s
  | .protocolError => .next s
  | .transportError => .next s

/-- One step. The device appends to RXQ (20_memory.md R64), the transport's mood and the time are the environment's
(93_implementation_defined.md I10, I11, I12). -/
def step (s : State) : Host.Outcome State Fault Refusal :=
  match (nextTurn s).1 with
  | .host => hostStep (nextTurn s).2
  | .engine => engineStep (nextTurn s).2
  | .device bs => .next ((nextTurn s).2.setRxq ((nextTurn s).2.link.rxq ++ bs))
  | .transport f w b =>
    .next ((nextTurn s).2.setLink { (nextTurn s).2.link with flushAnswer := f, writeAnswer := w, broken := b })
  | .clock n l => .next (((nextTurn s).2.setNow ((nextTurn s).2.now + n)).setLapse l)

/-- The state in which the very next step runs a word of spec/opcode_table.json (log 6). -/
def State.withFetchWord (s : State) (nbits w : Nat) : State := placeWord nbits w s

end Sys2Proof.Machine
end

