-- ==== Sys2Proof/Machine/Blocking.lean ====
section
/-! DEFINITION. The two big-step forms the spec gives beside the step machine: DECODE as a function of the transport's
answers (42_frame_codec.md R177) and the blocking `execute(command, payload)` (43_transaction.md R218). The step function
does not call them. -/

namespace Sys2Proof.Machine

/-- `decode(EXP_ADDR, EXP_CMD, answers)` (42_frame_codec.md R177): the result and the answers left over; none when the
answers run out before a result. -/
def decodeAnswers (expAddr expCmd : Byte) : DecRegs → List RxAnswer → Option (DecResult × List RxAnswer)
  | _, [] => none
  | d, a :: rest =>
    match (applyAnswer expAddr expCmd a d).2 with
    | some r => some (r, rest)
    | none => decodeAnswers expAddr expCmd (applyAnswer expAddr expCmd a d).1 rest

/-- What the transport answers during one attempt (93_implementation_defined.md I10): to the flush, to the write (none is
`error`), and to the RxByte calls in order. -/
structure AttemptOracle where
  flushOk : Bool
  taken : Option Nat
  answers : List RxAnswer
  deriving DecidableEq, Repr

/-- The transport failure of a flush or write (43_transaction.md R211). -/
def transportRecord : FailRec := { kind := .transport, step := .off, expect := none, got := none, status := none }

/-- One attempt of R218: flush, write, decode; none when the oracle ends too early. -/
def blockingAttempt (c : Byte) (p : List Byte) (o : AttemptOracle) : Option DecResult :=
  if o.flushOk = false then some (.failed transportRecord)
  else if o.taken ≠ some (encodeFrame Config.DEV_ADDR c p).length then some (.failed transportRecord)
  else (decodeAnswers Config.DEV_ADDR c (startDecode 0) o.answers).map (·.1)

/-- The outcome of a failure at an attempt (43_transaction.md R214). -/
def failedOutcome (c attempt : Byte) (f : FailRec) : TxnOutcome :=
  .failed
    (match f.kind with
      | .device => .deviceError (f.status.getD 0) (errlookup (f.status.getD 0))
      | .transport => .transportFailure
      | k => .protocol k)
    { cmd := c, attempt := attempt, step := f.step, expect := f.expect, got := f.got, status := f.status }

/-- `deliver(command, p)` of R218: the first two rows of R214. -/
def deliverPayload (cfg : CfgRegs) (c attempt : Byte) (p : List Byte) (ts : Nat) : Option TxnOutcome :=
  (decoderFor cfg c).map (fun d =>
    match d with
    | .ack => .completedAck p
    | .meas =>
      match measdec cfg.minMeasLen p ts with
      | some r => .completedReading r
      | none =>
        .failed (.truncatedPayload p.length)
          { cmd := c, attempt := attempt, step := .off, expect := none, got := none, status := some 0x00 })

/-- The loop of R218 over the attempts `attempt + 1, attempt + 2, …`, each with its oracle. -/
def blockingLoop (cfg : CfgRegs) (c : Byte) (p : List Byte) (ts : Nat) : Byte → List AttemptOracle → Option TxnOutcome
  | _, [] => none
  | attempt, o :: rest =>
    match blockingAttempt c p o with
    | none => none
    | some (.frame f) => deliverPayload cfg c (attempt + 1) f.payload ts
    | some (.failed f) =>
      if f.kind.isTransient = true ∧ attempt + 1 ≠ cfg.retries then blockingLoop cfg c p ts (attempt + 1) rest
      else some (failedOutcome c (attempt + 1) f)

/-- `execute(command, payload)` in its blocking form (43_transaction.md R218): the refusal of R203, or the outcome, none
when the oracle ends too early. -/
def blockingExecute (c : Byte) (p : List Byte) (ts : Nat) (os : List AttemptOracle) (s : State) :
    Except RefuseReason (Option TxnOutcome) :=
  match executeRefusal c p s with
  | some r => .error r
  | none => .ok (blockingLoop s.cfg c p ts 0 os)

/-! ### The moves of the four agents that play an oracle to the step machine -/

/-- The moves of one decode: each byte reaches RXQ and is read; a timeout is the deadline passing; an error is the
transport breaking. -/
def answerTurns (timeout : Nat) : List RxAnswer → List Turn
  | [] => []
  | .byte b :: rest => .device [b] :: .engine :: answerTurns timeout rest
  | .timeout :: rest => .clock timeout 0 :: .engine :: answerTurns timeout rest
  | .error :: rest => .transport .ok .all true :: .engine :: answerTurns timeout rest

/-- The moves of one attempt: START, SENT, the decode, BACKOFF. -/
def attemptTurns (timeout : Nat) (o : AttemptOracle) : List Turn :=
  .transport (if o.flushOk then .ok else .error 0)
      (match o.taken with
        | some n => .upTo n
        | none => .error 0) false ::
    .engine :: .engine :: (answerTurns timeout o.answers ++ [.engine])

/-- The moves of a transaction. -/
def oracleTurns (timeout : Nat) : List AttemptOracle → List Turn
  | [] => []
  | o :: rest => attemptTurns timeout o ++ oracleTurns timeout rest

end Sys2Proof.Machine
end

