-- ==== Sys2Proof/Safety.lean ====
section
/-! DEFINITION. The terms the claims use: the invariant of the machine, exclusive ownership of the transport, what it is for
a step to read a byte, and what it is for a failure to be taken. -/

namespace Sys2Proof.Machine

/-- RXBUF and RXCNT agree: RXBUF holds exactly its first `min RXCNT 257` elements, and RXCNT saturates at 258
(10_state.md R28; 40_stuffing.md R137). -/
structure BufferInv (d : DecRegs) : Prop where
  bufLength : d.rxBuf.length = min d.rxCnt 257
  cntBound : d.rxCnt ≤ 258

/-- What the header bytes read so far are, by DEC_STATE (42_frame_codec.md R166, R167, R168, R173). -/
structure HeaderInv (s : State) : Prop where
  addrMatches :
    s.dec.decState = .cmd ∨ s.dec.decState = .status ∨ s.dec.decState = .drain ∨ s.dec.decState = .body →
      s.dec.rxAddr = s.txn.expAddr
  cmdMatches :
    s.dec.decState = .status ∨ s.dec.decState = .drain ∨ s.dec.decState = .body → s.dec.rxCmd = s.txn.expCmd
  bodyStatus : s.dec.decState = .body → s.dec.rxStatus = 0x00
  drainStatus : s.dec.decState = .drain → s.dec.rxStatus ≠ 0x00

/-- What holds while a transaction is live (10_state.md R24, R25; 43_transaction.md R203, R204, R215). -/
structure LiveInv (s : State) : Prop where
  attempts : s.txn.attempt.toNat + s.txn.attRem.toNat = s.cfg.retries.toNat
  command : isCommand s.req.cmd = true
  expCmd : s.txn.expCmd = s.req.cmd
  expAddr : s.txn.expAddr = 0x00
  payload : s.req.txPay.length = s.req.txLen.toNat
  timeoutSet : 1 ≤ s.cfg.timeout
  attemptDue : s.txn.tmState = .start ∨ s.txn.tmState = .backoff → s.txn.attRem ≠ 0
  attemptMade : s.txn.tmState ≠ .start → s.txn.attempt ≠ 0

/-- What the result registers hold in BACKOFF and in the terminal states (10_state.md R30; 43_transaction.md R208 to R211). -/
structure ResultInv (s : State) : Prop where
  completed : s.txn.tmState = .completed →
    s.res.kind = .none ∧ s.res.status = 0x00 ∧ s.res.pay.length = s.res.len.toNat
  deviceError : s.txn.tmState = .deviceError → s.res.kind = .device ∧ s.res.status ≠ 0x00
  protocolError : s.txn.tmState = .protocolError → s.res.kind.isTransient = true ∧ s.txn.attRem = 0
  transportError : s.txn.tmState = .transportError → s.res.kind = .transport
  backoff : s.txn.tmState = .backoff → s.res.kind.isTransient = true
  attempt : s.done = true ∨ s.txn.tmState = .backoff → s.res.attempt = s.txn.attempt

/-- The invariant of the machine. -/
structure Consistent (s : State) : Prop where
  decodeRuns : s.dec.decState ≠ .off ↔ s.txn.tmState = .await
  buffer : BufferInv s.dec
  header : HeaderInv s
  live : s.busy = true → LiveInv s
  result : ResultInv s

/-- The operation is one of the three transport primitives. -/
def isPrimitive : Instr → Bool
  | .rxbyte => true
  | .txwrite _ => true
  | .rxflush => true
  | _ => false

/-- Exclusive ownership of the transport (70_reset_and_hazards.md R330): no operation the host has presented calls a
primitive itself. -/
def Exclusive (s : State) : Prop := ∀ r ∈ s.hostq, ∀ i, hostInstr r = .ok i → isPrimitive i = false

/-- The next RxByte of a decode in AWAIT answers `b` and leaves `q` in RXQ (20_memory.md R66). -/
structure ReadsByte (s : State) (b : Byte) (q : List Byte) : Prop where
  await : s.txn.tmState = .await
  sound : s.link.broken = false
  inTime : s.now < s.txn.deadline
  queue : s.link.rxq = b :: q

/-- The state after that read, at time `n`, and before the rule of DEC_STATE: the byte is gone. -/
def afterRead (s : State) (q : List Byte) (n : Nat) : State := { s with link := { s.link with rxq := q }, now := n }

/-- The operation reads a byte and goes on to the state `f n`, at some time `n` at least one tick later (20_memory.md R66
law 3). -/
def ReadsTo (o : Host.Outcome State Fault Refusal) (s : State) (f : Nat → State) : Prop :=
  ∃ n, s.now + 1 ≤ n ∧ o = .next (f n)

/-- The operation reads a byte, at some time `n` at least one tick later, and goes on to a next state that satisfies
`P n`. -/
def ReadsSat (o : Host.Outcome State Fault Refusal) (s : State) (P : Nat → State → Prop) : Prop :=
  ∃ n t, s.now + 1 ≤ n ∧ o = .next t ∧ P n t

/-- Every register a failure writes, and nothing else of the engine (60_exceptions.md R290): `s` is the state at detection,
`t` the state after. A detail the cause gives no value is left open. -/
structure FailureTaken (f : FailRec) (target : TmState) (s t : State) : Prop where
  kind : t.res.kind = f.kind
  attempt : t.res.attempt = s.txn.attempt
  step : t.res.step = f.step
  expect : ∀ e, f.expect = some e → t.res.expect = e
  got : ∀ g, f.got = some g → t.res.got = g
  status : ∀ x, f.status = some x → t.res.status = x
  payload : t.res.len = s.res.len ∧ t.res.pay = s.res.pay
  decode : t.dec.decState = .off
  txn : t.txn = { s.txn with tmState := target }
  kept : t.cfg = s.cfg ∧ t.req = s.req ∧ t.link = s.link ∧ t.now = s.now ∧ t.lapse = s.lapse ∧ t.hostq = s.hostq ∧
    t.turns = s.turns ∧ t.answer = s.answer
  events : t.events =
    s.events ++ .attemptFailed s.req.cmd s.txn.attempt f :: (if isTerminal target then [.done s.req.cmd target] else [])

/-- The step goes on to a next state that satisfies `P`. -/
def NextSat (o : Host.Outcome State Fault Refusal) (P : State → Prop) : Prop := ∃ t, o = .next t ∧ P t

/-- A segment of a stuffed sequence and the byte it stands for: one byte other than 0x7D, or an escape pair of
30_encoding.md R94. -/
def EscapeSegment (g : List Byte × Byte) : Prop :=
  (g.1 = [g.2] ∧ g.2 ≠ 0x7D) ∨
    g ∈ [([0x7D, 0x5E], (0x7E : Byte)), ([0x7D, 0x5D], 0x7D), ([0x7D, 0x31], 0x11), ([0x7D, 0x33], 0x13)]

/-- The state without what the event port has emitted. -/
def silenced (s : State) : State := { s with events := [] }

/-- The outcome without what the event port has emitted. -/
def silencedOutcome : Host.Outcome State Fault Refusal → Host.Outcome State Fault Refusal
  | .next s => .next (silenced s)
  | .fault f => .fault f
  | .refused r => .refused r

/-- The edges of the state diagram, and staying (43_transaction.md R201). -/
def isEdge : TmState → TmState → Bool
  | .idle, .idle => true
  | .idle, .start => true
  | .start, .start => true
  | .start, .sent => true
  | .start, .transportError => true
  | .sent, .sent => true
  | .sent, .await => true
  | .await, .await => true
  | .await, .completed => true
  | .await, .backoff => true
  | .await, .protocolError => true
  | .await, .deviceError => true
  | .await, .transportError => true
  | .backoff, .backoff => true
  | .backoff, .start => true
  | .completed, .completed => true
  | .completed, .idle => true
  | .deviceError, .deviceError => true
  | .deviceError, .idle => true
  | .protocolError, .protocolError => true
  | .protocolError, .idle => true
  | .transportError, .transportError => true
  | .transportError, .idle => true
  | _, _ => false

/-- The step takes a RESET of the host. -/
def TakesReset (s : State) : Prop :=
  (nextTurn s).1 = .host ∧ ∃ r rest, s.hostq = r :: rest ∧ hostInstr r = .ok .reset

/-- The device sends no marker byte: the condition of a transport that never produces one (43_transaction.md R215). -/
def NoMarkerTurn : Turn → Prop
  | .host => True
  | .engine => True
  | .device bs => (0x7E : Byte) ∉ bs
  | .transport _ _ _ => False
  | .clock _ _ => True

/-- The bytes an oracle answers in one attempt. -/
def byteCount (as : List RxAnswer) : Nat :=
  as.countP (fun a => match a with
    | .byte _ => true
    | _ => false)

/-- The oracle of an attempt is exact for a request of command `c` whose frame has `len` bytes: the write takes no more than
the frame, and if the attempt comes to its decode, the decode uses up the answers and reads no more bytes than the deadline
has room for (20_memory.md R66, R67). -/
structure ExactOracle (timeout : Nat) (c : Byte) (len : Nat) (o : AttemptOracle) : Prop where
  taken : ∀ n, o.taken = some n → n ≤ len
  decode : o.flushOk = true → o.taken = some len →
    byteCount o.answers ≤ timeout ∧ ∃ r, decodeAnswers Config.DEV_ADDR c (startDecode 0) o.answers = some (r, [])

end Sys2Proof.Machine
end

