-- ==== Sys2Proof/Certificates/Slice0/Obligations.lean ====
section
/-! DEFINITION. The statements for the provers. Each docstring names the rules it formalises and, where one rests on a choice
of the model, the log entry. -/

open Sys2Proof Sys2Proof.Machine

/-! ### Encoding -/

/-- Words written out from 30_encoding.md R94, R95, R96 and the opcode table decode to their operations. The REQ record is
command, length, payload (log 3); which row an 8-bit word shared by a command and a status names is the model's choice
(log 4). -/
def Obligations.TableWordsDecode : Prop :=
  decodeTableWord 8 0x00 = some (.startMeas []) ∧ decodeTableWord 8 0x01 = some (.stopMeas []) ∧
  decodeTableWord 8 0x03 = some (.readMeas []) ∧ decodeTableWord 8 0x80 = some (.autoclean []) ∧
  decodeTableWord 8 0x56 = some (.fanClean []) ∧ decodeTableWord 8 0xD0 = some (.devInfo []) ∧
  decodeTableWord 8 0xD3 = some (.devReset []) ∧ decodeTableWord 16 0x7D5E = some .esc7E ∧
  decodeTableWord 16 0x7D5D = some .esc7D ∧ decodeTableWord 16 0x7D31 = some .esc11 ∧
  decodeTableWord 16 0x7D33 = some .esc13 ∧ decodeTableWord 8 0x7E = some .marker ∧
  decode .status [0x00] = .ok .status00 ∧ decode .status [0x01] = .ok .status01 ∧
  decodeTableWord 8 0x02 = some .status02 ∧ decode .status [0x03] = .ok .status03 ∧
  decodeTableWord 8 0x04 = some .status04 ∧ decodeTableWord 8 0x28 = some .status28 ∧
  decodeTableWord 8 0x43 = some .status43 ∧ decode .status [0x7D] = .ok (.statusOther 0x7D) ∧
  decode .req [0x80, 0x01, 0x00] = .ok (.autoclean [0x00])

/-- Decoding the record of a well-formed operation gives it back, with every operand (30_encoding.md R90 to R97, R106). The
records of the OP rows are the model's own (log 2). -/
def Obligations.DecodeOfEncode : Prop :=
  ∀ i : Instr, WellFormed i → decode (encode i).1 (encode i).2 = .ok i

/-- Every record has one meaning: what the decoder reads is well formed and its record is the bytes read. The records of
the OP rows are the model's own (log 2). -/
def Obligations.EncodeOfDecode : Prop :=
  ∀ (f : Format) (bs : List Byte) (i : Instr), decode f bs = .ok i → WellFormed i ∧ encode i = (f, bs)

/-! ### Stuffing (40_stuffing.md) -/

/-- R132: STUFF answers the input with each reserved byte replaced by its pair of R94, for every input, and changes nothing
else. The answer of a unit stands in the field `answer` (log 27), here and in the statements that follow. -/
def Obligations.StuffReplacesReservedBytes : Prop :=
  ∀ (x : List Byte) (s : State),
    exec (.stuff x) s =
      .next { s with
        answer := some (.bytes (x.flatMap fun b =>
          if b = 0x7E then [0x7D, 0x5E]
          else if b = 0x7D then [0x7D, 0x5D]
          else if b = 0x11 then [0x7D, 0x31]
          else if b = 0x13 then [0x7D, 0x33]
          else [b])) }

/-- R133 items 1 to 4. -/
def Obligations.StuffedOutputShape : Prop :=
  (∀ x : List Byte, x.length ≤ (stuff x).length ∧ (stuff x).length ≤ 2 * x.length ∧
    (stuff x).length = x.length + x.countP isReserved) ∧
  (∀ a b : List Byte, stuff (a ++ b) = stuff a ++ stuff b) ∧
  (∀ x : List Byte, 0x7E ∉ stuff x ∧ 0x11 ∉ stuff x ∧ 0x13 ∉ stuff x ∧
    ∀ n : Nat, (stuff x)[n]? = some 0x7D → ∃ c : Byte, (stuff x)[n + 1]? = some c ∧ isEscCode c = true) ∧
  (∀ x y : List Byte, stuff x = stuff y → x = y)

/-- R136: UNSTUFF answers `x` exactly when its input is cut into segments, each a byte other than 0x7D or an escape pair,
that stand for `x`; it answers MalformedEscape exactly when there is no such cut, and that is when a 0x7D in front of which
everything unstuffs is the last byte or is followed by a byte outside the four codes. It changes nothing else. -/
def Obligations.UnstuffAnswers : Prop :=
  ∀ (y : List Byte) (s : State),
    (∀ x, exec (.unstuff y) s = .next { s with answer := some (.bytes x) } ↔
      ∃ segs : List (List Byte × Byte), (∀ g ∈ segs, EscapeSegment g) ∧ y = segs.flatMap (·.1) ∧ x = segs.map (·.2)) ∧
    (exec (.unstuff y) s = .next { s with answer := some .malformedEscape } ↔
      ¬ ∃ segs : List (List Byte × Byte), (∀ g ∈ segs, EscapeSegment g) ∧ y = segs.flatMap (·.1)) ∧
    (exec (.unstuff y) s = .next { s with answer := some .malformedEscape } ↔
      ∃ a rest, y = a ++ 0x7D :: rest ∧ unstuff a ≠ none ∧
        (rest = [] ∨ ∃ c r, rest = c :: r ∧ c ∉ [(0x5E : Byte), 0x5D, 0x31, 0x33]))

/-- R138: the round trip for all byte sequences, and the converse exactly on the image of STUFF; the converse, "The converse
`stuff(unstuff(y)) = y` holds only for `y` in the image of `stuff`", is the spec's own inference there. -/
def Obligations.UnstuffStuffRoundTrip : Prop :=
  (∀ x : List Byte, unstuff (stuff x) = some x) ∧
  (∀ y z : List Byte, unstuff y = some z → (stuff z = y ↔ ∃ x, y = stuff x))

/-- R137: from cleared registers the streaming unstuffer gives the verdict of UNSTUFF on the whole region, and the buffer
and count of its result. -/
def Obligations.StreamingUnstufferAgrees : Prop :=
  ∀ (raw : List Byte) (d : DecRegs),
    d.rxCnt = 0 → d.rxBuf = [] → d.escPend = false → d.malformed = false →
    let e := closeRegion (raw.foldl (fun d b => feed b d) d)
    (e.malformed = true ↔ unstuff raw = none) ∧
    (∀ u, unstuff raw = some u → e.rxCnt = min u.length 258 ∧ e.rxBuf = u.take 257 ∧ e.escPend = false) ∧
    e.decState = d.decState ∧ e.rxAddr = d.rxAddr ∧ e.rxCmd = d.rxCmd ∧ e.rxStatus = d.rxStatus

/-- R172: validation over the registers and validation over the raw region agree for every region. -/
def Obligations.RegionValidationFormsAgree : Prop :=
  ∀ (raw : List Byte) (d : DecRegs),
    d.rxCnt = 0 → d.rxBuf = [] → d.escPend = false → d.malformed = false →
    validateRegion (closeRegion (raw.foldl (fun d b => feed b d) d)) = regionVerdict d.rxAddr d.rxCmd raw

/-! ### Checksum (41_checksum.md) -/

/-- R151, R152: CHKGEN answers 255 minus the low eight bits of the sum of header and payload; CHKVERIFY passes exactly when
that byte is the received one and else answers ChecksumMismatch with both. Neither changes anything else. -/
def Obligations.ChecksumUnitAnswers : Prop :=
  ∀ (a c l : Byte) (p : List Byte) (k : Byte) (s : State),
    let expected : Byte :=
      BitVec.ofNat 8 (255 - (a.toNat + c.toNat + l.toNat + (p.map BitVec.toNat).sum) % 256)
    exec (.chkgen a c l p) s = .next { s with answer := some (.checksum expected) } ∧
    (expected = k → exec (.chkverify a c l p k) s = .next { s with answer := some .verified }) ∧
    (expected ≠ k → exec (.chkverify a c l p k) s = .next { s with answer := some (.checksumMismatch expected k) })

/-- R153, the spec's own inference from R151 and R152: the sum form of the checksum, and that changing exactly one summed
byte breaks it. -/
def Obligations.ChecksumSumForm : Prop :=
  (∀ (h p : List Byte) (k : Byte),
    k = checksum h p ↔ ((h.map BitVec.toNat).sum + (p.map BitVec.toNat).sum + k.toNat) % 256 = 255) ∧
  (∀ (l r : List Byte) (b b' : Byte), b ≠ b' →
    ((l ++ b :: r).map BitVec.toNat).sum % 256 = 255 → ((l ++ b' :: r).map BitVec.toNat).sum % 256 ≠ 255)

/-! ### ENCODE and DECODE (42_frame_codec.md) -/

/-- R161: ENCODE answers marker, stuffed header, payload and checksum, marker, and changes nothing else. -/
def Obligations.EncodeComposesFrame : Prop :=
  ∀ (a c : Byte) (p : List Byte) (s : State), p.length ≤ 255 →
    exec (.encode a c p) s =
      .next { s with
        answer := some (.bytes
          ([0x7E] ++
            stuff ([a, c, BitVec.ofNat 8 p.length] ++ p ++
              [BitVec.ofNat 8
                (255 - (a.toNat + c.toNat + p.length + (p.map BitVec.toNat).sum) % 256)]) ++ [0x7E])) }

/-- R162 items 2, 3 and 4: a frame begins and ends with the marker and holds no other, nor 0x11 nor 0x13; its length is
between 6 and 517 for a command of the set; its interior unstuffs to header, payload and checksum, whose sum has low eight
bits 255. -/
def Obligations.EncodedFrameVerifies : Prop :=
  ∀ (a c : Byte) (p : List Byte), p.length ≤ 255 →
    ∃ m : List Byte, encodeFrame a c p = [0x7E] ++ m ++ [0x7E] ∧ 0x7E ∉ m ∧ 0x11 ∉ m ∧ 0x13 ∉ m ∧
      (∃ k : Byte, unstuff m = some ([a, c, BitVec.ofNat 8 p.length] ++ p ++ [k]) ∧
        chkverify a c (BitVec.ofNat 8 p.length) p k = none ∧
        ((([a, c, BitVec.ofNat 8 p.length] ++ p ++ [k]).map BitVec.toNat).sum) % 256 = 255) ∧
      (a = 0x00 → isCommand c = true → 6 ≤ (encodeFrame a c p).length ∧ (encodeFrame a c p).length ≤ 517)

/-- R165: in D_HUNT a marker starts a frame and any other byte is discarded; nothing else changes. Here and in the next
statements the byte read is gone from RXQ and how much time passed, at least one tick, is left open. -/
def Obligations.HuntFindsMarker : Prop :=
  ∀ (s : State) (b : Byte) (q : List Byte), ReadsByte s b q → s.dec.decState = .hunt →
    ReadsTo (exec .decode s) s fun n =>
      { afterRead s q n with dec := { s.dec with decState := if b = 0x7E then .addr else .hunt } }

/-- R166 with R209, R286: in D_ADDR the byte is compared raw with EXP_ADDR. Here and wherever FailureTaken stands, two
clauses of it are the model's reading: that a failure keeps RES_LEN and RES_PAY (log 12), and the order of its events
(log 33). -/
def Obligations.AddressByteChecked : Prop :=
  ∀ (s : State) (b : Byte) (q : List Byte), ReadsByte s b q → s.dec.decState = .addr →
    (b = s.txn.expAddr →
      ReadsTo (exec .decode s) s fun n => { afterRead s q n with dec := { s.dec with rxAddr := b, decState := .cmd } }) ∧
    (b ≠ s.txn.expAddr →
      ReadsSat (exec .decode s) s fun n t =>
        t.dec = { s.dec with rxAddr := b, decState := .off } ∧
        FailureTaken
          { kind := .address, step := .addr, expect := some s.txn.expAddr, got := some (b.zeroExtend 9), status := none }
          (if s.txn.attRem = 0 then .protocolError else .backoff) (afterRead s q n) t)

/-- R167 with R209, R287: in D_CMD the byte is compared raw with EXP_CMD. The model's reading in FailureTaken: log 12,
log 33. -/
def Obligations.CommandByteChecked : Prop :=
  ∀ (s : State) (b : Byte) (q : List Byte), ReadsByte s b q → s.dec.decState = .cmd →
    (b = s.txn.expCmd →
      ReadsTo (exec .decode s) s fun n => { afterRead s q n with dec := { s.dec with rxCmd := b, decState := .status } }) ∧
    (b ≠ s.txn.expCmd →
      ReadsSat (exec .decode s) s fun n t =>
        t.dec = { s.dec with rxCmd := b, decState := .off } ∧
        FailureTaken
          { kind := .command, step := .cmd, expect := some s.txn.expCmd, got := some (b.zeroExtend 9), status := none }
          (if s.txn.attRem = 0 then .protocolError else .backoff) (afterRead s q n) t)

/-- R168: in D_STATUS the byte is kept raw and only tested for zero. -/
def Obligations.StatusByteTestedForZero : Prop :=
  ∀ (s : State) (b : Byte) (q : List Byte), ReadsByte s b q → s.dec.decState = .status →
    ReadsTo (exec .decode s) s fun n =>
      { afterRead s q n with
        dec := { s.dec with rxStatus := b, decState := if b = 0x00 then .body else .drain } }

/-- R169, R210, R289: in D_DRAIN bytes are discarded up to and including the next marker, which ends the transaction with a
device failure whatever ATT_REM is. The model's reading in FailureTaken: log 12, log 33. -/
def Obligations.DrainEndsInDeviceError : Prop :=
  ∀ (s : State) (b : Byte) (q : List Byte), ReadsByte s b q → s.dec.decState = .drain →
    (b ≠ 0x7E → ReadsTo (exec .decode s) s fun n => afterRead s q n) ∧
    (b = 0x7E →
      ReadsSat (exec .decode s) s fun n t =>
        t.dec = { s.dec with decState := .off } ∧
        FailureTaken { kind := .device, step := .drain, expect := none, got := none, status := some s.dec.rxStatus }
          .deviceError (afterRead s q n) t)

/-- R170 with R137: in D_BODY a byte other than the marker goes through the streaming unstuffer. RXBUF as the list of its
valued elements is the model's form (log 24). -/
def Obligations.BodyByteUnstuffed : Prop :=
  ∀ (s : State) (b : Byte) (q : List Byte), ReadsByte s b q → s.dec.decState = .body → b ≠ 0x7E →
    (s.dec.escPend = true → ∀ v, (b, v) ∈ [((0x5E : Byte), (0x7E : Byte)), (0x5D, 0x7D), (0x31, 0x11), (0x33, 0x13)] →
      ReadsTo (exec .decode s) s fun n =>
        { afterRead s q n with
          dec := { s.dec with
            escPend := false
            rxBuf := if s.dec.rxCnt < 257 then s.dec.rxBuf ++ [v] else s.dec.rxBuf
            rxCnt := if s.dec.rxCnt < 258 then s.dec.rxCnt + 1 else s.dec.rxCnt } }) ∧
    (s.dec.escPend = true → b ∉ [(0x5E : Byte), 0x5D, 0x31, 0x33] →
      ReadsTo (exec .decode s) s fun n => { afterRead s q n with dec := { s.dec with escPend := false, malformed := true } }) ∧
    (s.dec.escPend = false → b = 0x7D →
      ReadsTo (exec .decode s) s fun n => { afterRead s q n with dec := { s.dec with escPend := true } }) ∧
    (s.dec.escPend = false → b ≠ 0x7D →
      ReadsTo (exec .decode s) s fun n =>
        { afterRead s q n with
          dec := { s.dec with
            rxBuf := if s.dec.rxCnt < 257 then s.dec.rxBuf ++ [b] else s.dec.rxBuf
            rxCnt := if s.dec.rxCnt < 258 then s.dec.rxCnt + 1 else s.dec.rxCnt } })

/-- R171, R172, R208, R209: in D_BODY the marker closes the region; a validated frame completes the transaction, a failed
validation is a transient failure. That success keeps RES_EXPECT and RES_GOT and a failure RES_LEN and RES_PAY is the
model's reading (log 12), and so is the order of the events (log 33). -/
def Obligations.ClosingMarkerDecides : Prop :=
  ∀ (s : State) (q : List Byte), ReadsByte s 0x7E q → s.dec.decState = .body →
    (∀ f, validateRegion (closeRegion s.dec) = .frame f →
      ReadsTo (exec .decode s) s fun n =>
        { afterRead s q n with
          dec := { closeRegion s.dec with decState := .off }
          txn := { s.txn with tmState := .completed }
          res := { s.res with
            kind := .none
            status := 0x00
            len := BitVec.ofNat 8 f.payload.length
            pay := f.payload
            attempt := s.txn.attempt
            step := .off }
          events := s.events ++
            [.frameReceived s.req.cmd s.txn.attempt (BitVec.ofNat 8 f.payload.length) f.payload,
              .done s.req.cmd .completed] }) ∧
    (∀ f, validateRegion (closeRegion s.dec) = .failed f →
      f.step = .body ∧ (f.kind = .escape ∨ f.kind = .length ∨ f.kind = .checksum) ∧
      ReadsSat (exec .decode s) s fun n t =>
        t.dec = { closeRegion s.dec with decState := .off } ∧
        FailureTaken f (if s.txn.attRem = 0 then .protocolError else .backoff) (afterRead s q n) t)

/-- R174, R282: in every decode state an expired deadline is a Timeout, even with bytes waiting; an empty queue with no agent
left to move runs into the deadline (log 15). The status byte is recorded once it has been read. The model's reading in
FailureTaken: log 12, log 33. -/
def Obligations.DeadlineEndsDecode : Prop :=
  ∀ s : State, s.txn.tmState = .await → s.dec.decState ≠ .off → s.link.broken = false →
    s.txn.deadline ≤ s.now ∨ (s.link.rxq = [] ∧ s.turns = []) →
    NextSat (exec .decode s) fun t =>
      s.txn.deadline ≤ t.now ∧ t.link = s.link ∧ t.dec = { s.dec with decState := .off } ∧
      FailureTaken
        { kind := .timeout, step := s.dec.decState, expect := none, got := none,
          status := if s.dec.decState = .drain ∨ s.dec.decState = .body then some s.dec.rxStatus else none }
        (if s.txn.attRem = 0 then .protocolError else .backoff) { s with now := t.now } t

/-- R175, R211, R291: in every decode state a broken transport ends the transaction, not retried whatever ATT_REM is. The
status byte kept in D_DRAIN and D_BODY follows 10_state.md R30 (log 32), the time the call takes is `lapse` (log 14); the
model's reading in FailureTaken: log 12, log 33. -/
def Obligations.BrokenTransportEndsDecode : Prop :=
  ∀ s : State, s.txn.tmState = .await → s.dec.decState ≠ .off → s.link.broken = true →
    NextSat (exec .decode s) fun t =>
      t.dec = { s.dec with decState := .off } ∧
      FailureTaken
        { kind := .transport, step := s.dec.decState, expect := none, got := none,
          status := if s.dec.decState = .drain ∨ s.dec.decState = .body then some s.dec.rxStatus else none }
        .transportError { s with now := s.now + s.lapse } t

/-- R173: a decode that returns a frame has read, after bytes it discarded and the header, a region that unstuffs to length,
payload and checksum, and the closing marker; nothing after the marker is consumed. The answers are bytes, timeouts and
errors (R177). -/
def Obligations.ValidatedFrameGuarantees : Prop :=
  ∀ (ea ec : Byte) (n : Nat) (as rest : List RxAnswer) (f : Frame),
    decodeAnswers ea ec (startDecode n) as = some (.frame f, rest) →
    f.address = ea ∧ f.command = ec ∧ f.status = 0x00 ∧ f.payload.length ≤ 255 ∧
    ∃ pre raw : List Byte, 0x7E ∉ pre ∧ 0x7E ∉ raw ∧
      as = (pre ++ [0x7E, ea, ec, 0x00] ++ raw ++ [0x7E]).map .byte ++ rest ∧
      unstuff raw = some ([BitVec.ofNat 8 f.payload.length] ++ f.payload ++
        [checksum [ea, ec, BitVec.ofNat 8 f.payload.length] f.payload])

/-- R177, last sentence: for a response that arrives whole, the decode returns the frame of a payload exactly when the
region unstuffs to length, payload and checksum; the stuffed form is one such region. -/
def Obligations.WholeResponseDecodes : Prop :=
  ∀ (ea ec : Byte) (n : Nat) (p : List Byte), p.length ≤ 255 →
    (∀ raw : List Byte, 0x7E ∉ raw →
      (decodeAnswers ea ec (startDecode n) (([0x7E, ea, ec, 0x00] ++ raw ++ [0x7E]).map .byte) =
          some (.frame { address := ea, command := ec, status := 0x00, payload := p }, []) ↔
        unstuff raw = some ([BitVec.ofNat 8 p.length] ++ p ++ [checksum [ea, ec, BitVec.ofNat 8 p.length] p]))) ∧
    decodeAnswers ea ec (startDecode n)
        (([0x7E, ea, ec, 0x00] ++
            stuff ([BitVec.ofNat 8 p.length] ++ p ++ [checksum [ea, ec, BitVec.ofNat 8 p.length] p]) ++
            [0x7E]).map .byte) =
      some (.frame { address := ea, command := ec, status := 0x00, payload := p }, [])

/-- R139, the part of it proved from the rules: if exactly one raw byte between the status byte and the closing marker of a
valid response is replaced by a different value, the decode does not return a validated frame. -/
def Obligations.SingleByteCorruptionDetected : Prop :=
  ∀ (ea ec : Byte) (n : Nat) (pre post p : List Byte) (b b' : Byte), p.length ≤ 255 → b ≠ b' →
    0x7E ∉ pre ++ b :: post →
    unstuff (pre ++ b :: post) =
      some ([BitVec.ofNat 8 p.length] ++ p ++ [checksum [ea, ec, BitVec.ofNat 8 p.length] p]) →
    ∀ f rest, decodeAnswers ea ec (startDecode n)
      (([0x7E, ea, ec, 0x00] ++ (pre ++ b' :: post) ++ [0x7E]).map .byte) ≠ some (.frame f, rest)

/-! ### Rows of the wire -/

/-- R94, R137: in a region each escape pair puts the reserved byte it stands for into RXBUF, whether its introducer has been
read already or not, and nothing else changes. -/
def Obligations.EscapePairStandsForReservedByte : Prop :=
  ∀ s : State, s.txn.tmState = .await → s.dec.decState = .body →
    ∀ (i : Instr) (v : Byte), (i, v) ∈ [(Instr.esc7E, (0x7E : Byte)), (.esc7D, 0x7D), (.esc11, 0x11), (.esc13, 0x13)] →
      exec i s =
        .next { s with
          dec := { s.dec with
            escPend := false
            rxBuf := if s.dec.rxCnt < 257 then s.dec.rxBuf ++ [v] else s.dec.rxBuf
            rxCnt := if s.dec.rxCnt < 258 then s.dec.rxCnt + 1 else s.dec.rxCnt } }

/-- R93, R165, R166, R168, R169: what the marker does in each decode state but D_BODY and D_CMD, by value alone; those two
are ClosingMarkerDecides and CommandByteChecked with AwaitStepIsDecode. The model's reading in FailureTaken: log 12,
log 33. -/
def Obligations.MarkerRecognisedByValue : Prop :=
  ∀ s : State, s.txn.tmState = .await →
    (s.dec.decState = .hunt → exec .marker s = .next { s with dec := { s.dec with decState := .addr } }) ∧
    (s.dec.decState = .addr → s.txn.expAddr ≠ 0x7E →
      NextSat (exec .marker s) fun t =>
        t.dec = { s.dec with rxAddr := 0x7E, decState := .off } ∧
        FailureTaken
          { kind := .address, step := .addr, expect := some s.txn.expAddr, got := some 0x7E, status := none }
          (if s.txn.attRem = 0 then .protocolError else .backoff) s t) ∧
    (s.dec.decState = .status →
      exec .marker s = .next { s with dec := { s.dec with rxStatus := 0x7E, decState := .drain } }) ∧
    (s.dec.decState = .drain →
      NextSat (exec .marker s) fun t =>
        t.dec = { s.dec with decState := .off } ∧
        FailureTaken { kind := .device, step := .drain, expect := none, got := none, status := some s.dec.rxStatus }
          .deviceError s t)

/-- R96, R103, R168: in D_STATUS every status row is read raw; zero opens the region, every other code the drain; nothing
else changes. -/
def Obligations.StatusRowsRouteDecode : Prop :=
  ∀ s : State, s.txn.tmState = .await → s.dec.decState = .status →
    exec .status00 s = .next { s with dec := { s.dec with rxStatus := 0x00, decState := .body } } ∧
    (∀ (i : Instr) (code : Byte),
      (i, code) ∈ [(Instr.status01, (0x01 : Byte)), (.status02, 0x02), (.status03, 0x03), (.status04, 0x04),
        (.status28, 0x28), (.status43, 0x43)] →
      exec i s = .next { s with dec := { s.dec with rxStatus := code, decState := .drain } }) ∧
    (∀ code : Byte, WellFormed (.statusOther code) →
      exec (.statusOther code) s = .next { s with dec := { s.dec with rxStatus := code, decState := .drain } })

/-- 10_state.md R32, as the model applies it (log 7, log 8): while no decode runs the bytes of a wire row, STATUS_OTHER of
every code among them, wait in RXQ and nothing else changes. -/
def Obligations.WireBytesWaitOutsideDecode : Prop :=
  ∀ s : State, s.txn.tmState ≠ .await ∨ s.dec.decState = .off →
    (∀ (i : Instr) (bs : List Byte),
      (i, bs) ∈ [(Instr.esc7E, [(0x7D : Byte), 0x5E]), (.esc7D, [0x7D, 0x5D]), (.esc11, [0x7D, 0x31]),
        (.esc13, [0x7D, 0x33]), (.marker, [0x7E]), (.status00, [0x00]), (.status01, [0x01]), (.status02, [0x02]),
        (.status03, [0x03]), (.status04, [0x04]), (.status28, [0x28]), (.status43, [0x43])] →
      exec i s = .next { s with link := { s.link with rxq := s.link.rxq ++ bs } }) ∧
    ∀ code : Byte,
      exec (.statusOther code) s = .next { s with link := { s.link with rxq := s.link.rxq ++ [code] } }

/-- 42_frame_codec.md R163 to R175: the frame of DECODE and of every wire row. They change no configuration or operand
register, send nothing, and of the transaction registers write TM_STATE alone; what they emit is added to the events. Outside
AWAIT, where the rules give these operations no effect, this is the model's reading: DECODE changes nothing (log 22), and the
bytes of a wire row wait in RXQ (log 7). That a wire row is an operation of its own, without RxByte's deadline test, and an
escape pair one operation, is the model's choice (log 8, log 35). -/
def Obligations.WireOperationsFrame : Prop :=
  ∀ (i : Instr) (s t : State),
    i ∈ [Instr.esc7E, .esc7D, .esc11, .esc13, .marker, .status00, .status01, .status02, .status03, .status04, .status28,
      .status43, .decode] ∨ (∃ code, i = .statusOther code) →
    exec i s = .next t →
    t.cfg = s.cfg ∧ t.req = s.req ∧ t.txn = { s.txn with tmState := t.txn.tmState } ∧ t.link.tx = s.link.tx ∧
    t.link.flushAnswer = s.link.flushAnswer ∧ t.link.writeAnswer = s.link.writeAnswer ∧
    t.link.broken = s.link.broken ∧ t.lapse = s.lapse ∧ t.hostq = s.hostq ∧ t.turns = s.turns ∧ t.answer = s.answer ∧
    s.events <+: t.events ∧ s.now ≤ t.now

/-! ### The transport primitives (20_memory.md) -/

/-- R66: broken first, then the deadline even with bytes waiting, then the oldest byte, which is removed while at least one
tick passes. With an empty queue the call ends at the deadline; while other agents have moves it waits: it answers
nothing, its record stays presented first, and nothing else changes (log 15). DEADLINE is the value the state holds; before an
attempt has armed it that is the model's choice (log 37), and no value of it is used here. -/
def Obligations.RxByteLaws : Prop :=
  ∀ s : State,
    (s.link.broken = true →
      exec .rxbyte s = .next { s with now := s.now + s.lapse, answer := some (.received .error) }) ∧
    (s.link.broken = false → s.txn.deadline ≤ s.now →
      exec .rxbyte s = .next { s with now := s.now + s.lapse, answer := some (.received .timeout) }) ∧
    (∀ b q, s.link.broken = false → s.now < s.txn.deadline → s.link.rxq = b :: q →
      exec .rxbyte s =
        .next { s with
          link := { s.link with rxq := q }
          now := s.now + 1 + s.lapse
          answer := some (.received (.byte b)) }) ∧
    (s.link.broken = false → s.now < s.txn.deadline → s.link.rxq = [] → s.turns = [] →
      exec .rxbyte s = .next { s with now := s.txn.deadline + s.lapse, answer := some (.received .timeout) }) ∧
    (s.link.broken = false → s.now < s.txn.deadline → s.link.rxq = [] → s.turns ≠ [] →
      exec .rxbyte s = .next { s with hostq := .op [13] :: s.hostq })

/-- R67, R68: TXWRITE appends the first `n` bytes to TX, `n` never more than the sequence, and answers `n` or error; RXFLUSH
empties RXQ when it answers ok. Neither touches the other stream or any register of the engine. How much a write takes, and
what a failing write or flush does to its stream, is the transport's (log 13); how long each takes is `lapse` (log 14). That
TXWRITE does the same with a sequence that is no whole encoded frame is the model's choice (log 38). -/
def Obligations.WriteAndFlushLaws : Prop :=
  ∀ (f : List Byte) (s : State),
    (s.link.writeAnswer = .all →
      exec (.txwrite f) s =
        .next { s with
          link := { s.link with tx := s.link.tx ++ f }
          now := s.now + s.lapse
          answer := some (.written (.count f.length)) }) ∧
    (∀ n, s.link.writeAnswer = .upTo n →
      exec (.txwrite f) s =
        .next { s with
          link := { s.link with tx := s.link.tx ++ f.take n }
          now := s.now + s.lapse
          answer := some (.written (.count (f.take n).length)) }) ∧
    (∀ k, s.link.writeAnswer = .error k →
      exec (.txwrite f) s =
        .next { s with
          link := { s.link with tx := s.link.tx ++ f.take k }
          now := s.now + s.lapse
          answer := some (.written .error) }) ∧
    (s.link.flushAnswer = .ok →
      exec .rxflush s =
        .next { s with
          link := { s.link with rxq := [] }
          now := s.now + s.lapse
          answer := some (.flushed true) }) ∧
    (∀ k, s.link.flushAnswer = .error k →
      exec .rxflush s =
        .next { s with
          link := { s.link with rxq := s.link.rxq.drop k }
          now := s.now + s.lapse
          answer := some (.flushed false) })

/-! ### The Transaction Manager (43_transaction.md) -/

/-- R203, R288: the four refusals of EXECUTE in their order. A refusal changes no register and emits REFUSED; it is a next
state of the model (log 18). -/
def Obligations.ExecuteRefusalsInOrder : Prop :=
  ∀ (c : Byte) (p : List Byte) (s : State),
    let refusedBy := fun r =>
      exec (.execute c p) s =
        .next { s with answer := some (.refused r), events := s.events ++ [.refused (.execute c p) r] }
    let legal := c ∈ [(0x00 : Byte), 0x01, 0x03, 0x80, 0x56, 0xD0, 0xD3]
    (s.txn.tmState ≠ .idle → refusedBy .busy) ∧
    (s.txn.tmState = .idle → ¬ legal → refusedBy .illegalCommand) ∧
    (s.txn.tmState = .idle → legal → 255 < p.length → refusedBy .payloadTooLong) ∧
    (s.txn.tmState = .idle → legal → p.length ≤ 255 → s.cfg.retries = 0 ∨ s.cfg.timeout = 0 → refusedBy .badConfig)

/-- R204: the effect of an accepted EXECUTE; nothing else changes but the answer port (log 27). -/
def Obligations.ExecuteCreatesTransaction : Prop :=
  ∀ (c : Byte) (p : List Byte) (s : State),
    s.txn.tmState = .idle → c ∈ [(0x00 : Byte), 0x01, 0x03, 0x80, 0x56, 0xD0, 0xD3] → p.length ≤ 255 →
    s.cfg.retries ≠ 0 → s.cfg.timeout ≠ 0 →
    exec (.execute c p) s =
      .next { s with
        req := { cmd := c, txLen := BitVec.ofNat 8 p.length, txPay := p }
        txn := { s.txn with
          expAddr := 0x00
          expCmd := c
          attRem := s.cfg.retries
          attempt := 0
          tmState := .start }
        answer := some .accepted }

/-- R240 to R247: each command is EXECUTE of its byte of R95 in every state and for every payload; where EXECUTE is accepted
the transaction is created. -/
def Obligations.CommandsAreExecute : Prop :=
  ∀ (p : List Byte) (s : State) (i : Instr) (c : Byte),
    (i, c) ∈ [(Instr.startMeas p, (0x00 : Byte)), (.stopMeas p, 0x01), (.readMeas p, 0x03), (.autoclean p, 0x80),
      (.fanClean p, 0x56), (.devInfo p, 0xD0), (.devReset p, 0xD3)] →
    exec i s = exec (.execute c p) s ∧
    (s.txn.tmState = .idle → p.length ≤ 255 → s.cfg.retries ≠ 0 → s.cfg.timeout ≠ 0 →
      exec i s =
        .next { s with
          req := { cmd := c, txLen := BitVec.ofNat 8 p.length, txPay := p }
          txn := { s.txn with
            expAddr := 0x00
            expCmd := c
            attRem := s.cfg.retries
            attempt := 0
            tmState := .start }
          answer := some .accepted })

/-- R205: the step in START on a transport that flushes and takes the whole frame. The order of the events is the model's
choice (log 33), and so is the 8-bit wrap of the counters in states no run reaches (log 28). -/
def Obligations.StartSendsWholeFrame : Prop :=
  ∀ s : State, s.txn.tmState = .start → s.link.flushAnswer = .ok →
    (s.link.writeAnswer = .all ∨ ∃ n, s.link.writeAnswer = .upTo n ∧ (requestFrame s.req).length ≤ n) →
    NextSat (engineStep s) fun t =>
      t = { s with
        txn := { s.txn with attempt := s.txn.attempt + 1, attRem := s.txn.attRem - 1, tmState := .sent }
        link := { s.link with rxq := [], tx := s.link.tx ++ encodeFrame 0x00 s.req.cmd (s.req.txPay.take s.req.txLen.toNat) }
        now := t.now
        events := s.events ++
          [.attemptStart s.req.cmd (s.txn.attempt + 1),
            .frameSent s.req.cmd (s.txn.attempt + 1)
              (encodeFrame 0x00 s.req.cmd (s.req.txPay.take s.req.txLen.toNat))] } ∧
      s.now ≤ t.now

/-- R205, R211: a failing flush, a failing write or a short write ends the transaction at once; after a failing flush nothing
is written, after a write the bytes taken stay sent. What a failing flush or write does to its stream is the transport's
(log 13), the wrap of the counters in states no run reaches the model's choice (log 28); the model's reading in
FailureTaken: log 12, log 33. -/
def Obligations.StartFailsOnTransport : Prop :=
  ∀ s : State, s.txn.tmState = .start →
    let s1 : State := { s with
      txn := { s.txn with attempt := s.txn.attempt + 1, attRem := s.txn.attRem - 1 }
      events := s.events ++ [.attemptStart s.req.cmd (s.txn.attempt + 1)] }
    let failed : FailRec := { kind := .transport, step := .off, expect := none, got := none, status := none }
    (∀ k, s.link.flushAnswer = .error k →
      NextSat (engineStep s) fun t =>
        t.link.tx = s.link.tx ∧ FailureTaken failed .transportError { s1 with link := t.link, now := t.now } t) ∧
    (∀ n, s.link.flushAnswer = .ok → s.link.writeAnswer = .upTo n → n < (requestFrame s.req).length →
      NextSat (engineStep s) fun t =>
        t.link = { s.link with rxq := [], tx := s.link.tx ++ (requestFrame s.req).take n } ∧
        FailureTaken failed .transportError { s1 with link := t.link, now := t.now } t) ∧
    (∀ k, s.link.flushAnswer = .ok → s.link.writeAnswer = .error k →
      NextSat (engineStep s) fun t =>
        t.link = { s.link with rxq := [], tx := s.link.tx ++ (requestFrame s.req).take k } ∧
        FailureTaken failed .transportError { s1 with link := t.link, now := t.now } t)

/-- R206, R164: the step in SENT waits at least CFG_SETTLE, arms the deadline from the time after the wait, clears the decode
counters and flags and starts the hunt; RX_ADDR, RX_CMD and RX_STATUS are left open
(log 10), and no element of RXBUF holds a value (log 24). -/
def Obligations.SentArmsDeadline : Prop :=
  ∀ s : State, s.txn.tmState = .sent →
    NextSat (engineStep s) fun t =>
      s.now + s.cfg.settle ≤ t.now ∧
      t.txn = { s.txn with deadline := t.now + s.cfg.timeout, tmState := .await } ∧
      t.dec.decState = .hunt ∧ t.dec.rxCnt = 0 ∧ t.dec.rxBuf = [] ∧ t.dec.escPend = false ∧ t.dec.malformed = false ∧
      t.cfg = s.cfg ∧ t.req = s.req ∧ t.res = s.res ∧ t.link = s.link ∧ t.lapse = s.lapse ∧ t.hostq = s.hostq ∧
      t.turns = s.turns ∧ t.answer = s.answer ∧ t.events = s.events

/-- R212: the step in BACKOFF waits at least CFG_BACKOFF and starts the next attempt; nothing else changes. -/
def Obligations.BackoffWaitsThenStarts : Prop :=
  ∀ s : State, s.txn.tmState = .backoff →
    NextSat (engineStep s) fun t =>
      s.now + s.cfg.backoff ≤ t.now ∧ t = { s with txn := { s.txn with tmState := .start }, now := t.now }

/-- R213, R214, R288: CONSUME while DONE is 0 is refused and cancels nothing. In COMPLETED it returns the acknowledgment, the
Reading or TruncatedPayload by the registered decoder; in the error states the failure; each goes to IDLE and keeps the
result registers. The timestamp is left open; a refusal is a next state of the model (log 18). -/
def Obligations.ConsumeReturnsOutcome : Prop :=
  ∀ s : State,
    let p := s.res.pay.take s.res.len.toNat
    (s.txn.tmState ∉ [TmState.completed, .deviceError, .protocolError, .transportError] →
      exec .consume s =
        .next { s with answer := some (.refused .notDone), events := s.events ++ [.refused .consume .notDone] }) ∧
    (∀ i : Fin 7, s.txn.tmState = .completed → commandIndex s.req.cmd = some i → s.cfg.decsel[i] = .ack →
      NextSat (exec .consume s) fun t =>
        t = { s with
          txn := { s.txn with tmState := .idle }
          answer := some (.outcome (.completedAck p))
          draws := t.draws }) ∧
    (∀ i : Fin 7, s.txn.tmState = .completed → commandIndex s.req.cmd = some i → s.cfg.decsel[i] = .meas →
      NextSat (exec .consume s) fun t =>
        ∃ ts o, t = { s with
          txn := { s.txn with tmState := .idle }
          answer := some (.outcome o)
          draws := t.draws } ∧
          (s.cfg.minMeasLen.toNat ≤ p.length ∧ 40 ≤ p.length →
            ∃ r, measdec s.cfg.minMeasLen p ts = some r ∧ o = .completedReading r) ∧
          (p.length < s.cfg.minMeasLen.toNat ∨ p.length < 40 →
            ∃ ctx : Context, o = .failed (.truncatedPayload p.length) ctx ∧ ctx.cmd = s.req.cmd ∧
              ctx.attempt = s.res.attempt ∧ ctx.step = s.res.step)) ∧
    (s.txn.tmState = .deviceError → s.res.kind = .device →
      exec .consume s =
        .next { s with
          txn := { s.txn with tmState := .idle }
          answer := some (.outcome (.failed (.deviceError s.res.status (errlookup s.res.status))
            { cmd := s.req.cmd, attempt := s.res.attempt, step := s.res.step, expect := none, got := none,
              status := some s.res.status })) }) ∧
    (s.txn.tmState = .protocolError →
      NextSat (exec .consume s) fun t =>
        ∃ ctx : Context, ctx.cmd = s.req.cmd ∧ ctx.attempt = s.res.attempt ∧ ctx.step = s.res.step ∧
          (s.res.kind = .checksum ∨ s.res.kind = .address ∨ s.res.kind = .command →
            ctx.expect = some s.res.expect ∧ ctx.got = some s.res.got) ∧
          (s.res.kind = .length → ctx.got = some s.res.got) ∧
          t = { s with
            txn := { s.txn with tmState := .idle }
            answer := some (.outcome (.failed (.protocol s.res.kind) ctx)) }) ∧
    (s.txn.tmState = .transportError →
      NextSat (exec .consume s) fun t =>
        ∃ ctx : Context, ctx.cmd = s.req.cmd ∧ ctx.attempt = s.res.attempt ∧ ctx.step = s.res.step ∧
          t = { s with
            txn := { s.txn with tmState := .idle }
            answer := some (.outcome (.failed .transportFailure ctx)) })

/-! ### The host port -/

/-- 10_state.md R23: CFGWRITE is refused unless TM_STATE is IDLE; else it writes the named register, an illegal value
included, and no other. A refusal is a next state of the model (log 18). -/
def Obligations.CfgwriteWritesOneRegister : Prop :=
  ∀ (s : State),
    (∀ w, s.txn.tmState ≠ .idle →
      exec (.cfgwrite w) s =
        .next { s with answer := some (.refused .busy), events := s.events ++ [.refused (.cfgwrite w) .busy] }) ∧
    (s.txn.tmState = .idle →
      (∀ v, exec (.cfgwrite (.retries v)) s =
        .next { s with cfg := { s.cfg with retries := v }, answer := some .accepted }) ∧
      (∀ v, exec (.cfgwrite (.timeout v)) s =
        .next { s with cfg := { s.cfg with timeout := v }, answer := some .accepted }) ∧
      (∀ v, exec (.cfgwrite (.backoff v)) s =
        .next { s with cfg := { s.cfg with backoff := v }, answer := some .accepted }) ∧
      (∀ v, exec (.cfgwrite (.settle v)) s =
        .next { s with cfg := { s.cfg with settle := v }, answer := some .accepted }) ∧
      (∀ v, exec (.cfgwrite (.minMeasLen v)) s =
        .next { s with cfg := { s.cfg with minMeasLen := v }, answer := some .accepted }) ∧
      (∀ (i : Fin 7) (d : Decoder),
        NextSat (exec (.cfgwrite (.decsel i d)) s) fun t =>
          t = { s with cfg := { s.cfg with decsel := t.cfg.decsel }, answer := some .accepted } ∧
          ∀ j : Fin 7, t.cfg.decsel[j] = if j = i then d else s.cfg.decsel[j]))

/-- 70_reset_and_hazards.md R320, 10_state.md R33: RESET is accepted in every state and gives every register the spec gives a
value that value; RXQ and the time are not touched. TX counting from the reset is the model's reading (log 16), and so is
that the event port sees nothing of the reset (log 17). -/
def Obligations.ResetOperationResets : Prop :=
  ∀ s : State,
    NextSat (exec .reset s) fun t =>
      t.txn.tmState = .idle ∧ t.dec.decState = .off ∧ t.busy = false ∧ t.done = false ∧
      t.cfg.retries = 3 ∧ t.cfg.timeout = 0 ∧ t.cfg.backoff = 0 ∧ t.cfg.settle = 0 ∧ t.cfg.minMeasLen = 40 ∧
      t.cfg.decsel = #v[.ack, .ack, .meas, .ack, .ack, .ack, .ack] ∧
      t.txn.attRem = 0 ∧ t.txn.attempt = 0 ∧ t.res.attempt = 0 ∧ t.txn.expAddr = 0x00 ∧ t.dec.rxCnt = 0 ∧
      t.dec.escPend = false ∧ t.dec.malformed = false ∧ t.res.kind = .none ∧ t.res.step = .off ∧
      t.link = { s.link with tx := [] } ∧ t.now = s.now ∧ t.events = s.events ∧ t.hostq = s.hostq ∧
      t.turns = s.turns ∧ t.lapse = s.lapse ∧ t.draws = s.draws

/-- 10_state.md R33: the reset state has every value the spec gives. -/
def Obligations.ResetStateValues : Prop :=
  let t := State.reset
  t.txn.tmState = .idle ∧ t.dec.decState = .off ∧ t.busy = false ∧ t.done = false ∧
  t.cfg.retries = 3 ∧ t.cfg.timeout = 0 ∧ t.cfg.backoff = 0 ∧ t.cfg.settle = 0 ∧ t.cfg.minMeasLen = 40 ∧
  t.cfg.decsel = #v[.ack, .ack, .meas, .ack, .ack, .ack, .ack] ∧
  t.txn.attRem = 0 ∧ t.txn.attempt = 0 ∧ t.res.attempt = 0 ∧ t.txn.expAddr = 0x00 ∧ t.dec.rxCnt = 0 ∧
  t.dec.escPend = false ∧ t.dec.malformed = false ∧ t.res.kind = .none ∧ t.res.step = .off

/-! ### Catalog and decoders (45_catalog_and_decoders.md) -/

/-- R260, R103, R263: ERRLOOKUP never fails; 0x02 is "Unknown command", and a code outside the table gets the fallback with
two upper-case digits. ACKDEC answers its payload unchanged. Neither changes anything else. -/
def Obligations.CatalogAndAckAnswer : Prop :=
  ∀ s : State,
    exec (.errlookup 0x02) s = .next { s with answer := some (.description "Unknown command") } ∧
    (∀ code : Byte,
      NextSat (exec (.errlookup code) s) fun t =>
        ∃ d : String, t = { s with answer := some (.description d) } ∧
          (code ∉ [(0x00 : Byte), 0x01, 0x02, 0x03, 0x04, 0x28, 0x43] →
            d = "unknown error 0x" ++ String.ofList
              [("0123456789ABCDEF".toList).getD (code.toNat / 16) 'x',
                ("0123456789ABCDEF".toList).getD (code.toNat % 16) 'x'])) ∧
    (∀ p : List Byte, exec (.ackdec p) s = .next { s with answer := some (.ack p) })

/-- R265, R266, R267, R268: MEASDEC refuses a payload shorter than CFG_MIN_MEAS_LEN or than 40 bytes with TruncatedPayload;
otherwise the ten fields are the big-endian words of the first 40 bytes and the timestamp is the one given. It changes
nothing else. -/
def Obligations.MeasdecReadsTenWords : Prop :=
  ∀ (p : List Byte) (ts : Nat) (s : State),
    (p.length < s.cfg.minMeasLen.toNat ∨ p.length < 40 →
      exec (.measdec p ts) s = .next { s with answer := some (.truncatedPayload p.length) }) ∧
    (s.cfg.minMeasLen.toNat ≤ p.length → 40 ≤ p.length →
      ∃ r : Reading, exec (.measdec p ts) s = .next { s with answer := some (.reading r) } ∧ r.timestamp = ts ∧
        ∀ (k : Nat) (b0 b1 b2 b3 : Byte) (w : Float32Bits),
          (k, w) ∈ [(0, r.pm1), (1, r.pm25), (2, r.pm4), (3, r.pm10), (4, r.nc0), (5, r.nc1), (6, r.nc2), (7, r.nc3),
            (8, r.nc4), (9, r.tps)] →
          p[4 * k]? = some b0 → p[4 * k + 1]? = some b1 → p[4 * k + 2]? = some b2 → p[4 * k + 3]? = some b3 →
          w.toNat = b0.toNat * 2 ^ 24 + b1.toNat * 2 ^ 16 + b2.toNat * 2 ^ 8 + b3.toNat)

/-! ### The step -/

/-- When the host's move comes and the record it has presented decodes, the step is exec of the decoded operation, the move
and the record taken. DECODE is the engine's own step: at the host port its record is taken and nothing else happens
(log 22; R201, R217: no transition out of a non-terminal state is the host's). -/
def Obligations.StepRunsHostOperation : Prop :=
  ∀ (s : State) (ts : List Turn) (f : Format) (bs : List Byte) (r : HostRecord) (rest : List HostRecord) (i : Instr),
    (s.turns = .host :: ts ∨ (s.turns = [] ∧ ts = [] ∧ s.active = false)) → s.hostq = r :: rest →
    ((f = .req ∧ r = .req bs) ∨ (f = .op ∧ r = .op bs)) → decode f bs = .ok i →
    (i ≠ .decode → step s = exec i { s with turns := ts, hostq := rest }) ∧
    (i = .decode → step s = .next { s with turns := ts, hostq := rest })

/-- When the engine's move comes in AWAIT, the byte RxByte answers is a status byte in D_STATUS, a marker elsewhere, and
after an introducer in D_BODY the code of an escape pair; if that record decodes, the step is exec of the decoded operation
on the state with the byte read. For every other byte, and where RxByte answers no byte, it is exec of DECODE. -/
def Obligations.StepRunsWireOperation : Prop :=
  ∀ (s : State) (ts : List Turn),
    (s.turns = .engine :: ts ∨ (s.turns = [] ∧ ts = [])) → s.txn.tmState = .await → s.dec.decState ≠ .off →
    (∀ b q f bs i, ReadsByte s b q →
      ((s.dec.decState = .status ∧ f = .status ∧ bs = [b]) ∨
        (s.dec.decState ≠ .status ∧ b = 0x7E ∧ f = .delim ∧ bs = [b]) ∨
        (s.dec.decState = .body ∧ b ≠ 0x7E ∧ s.dec.escPend = true ∧ f = .esc ∧ bs = [0x7D, b])) →
      decode f bs = .ok i → ∃ n, s.now + 1 ≤ n ∧ step s = exec i { afterRead s q n with turns := ts }) ∧
    (∀ b q, ReadsByte s b q → s.dec.decState ≠ .status → b ≠ 0x7E →
      (s.dec.decState = .body → s.dec.escPend = true → b ∉ [(0x5E : Byte), 0x5D, 0x31, 0x33]) →
      step s = exec .decode { s with turns := ts }) ∧
    (s.link.broken = true ∨ s.txn.deadline ≤ s.now ∨ s.link.rxq = [] → step s = exec .decode { s with turns := ts })

/-- R207, R163: in AWAIT the engine's step is one step of DECODE, whichever row of the table the byte belongs to. -/
def Obligations.AwaitStepIsDecode : Prop :=
  ∀ s : State, s.txn.tmState = .await → engineStep s = exec .decode s

/-! ### Invariants and rules about the whole machine -/

/-- The invariant holds right after reset. -/
def Obligations.ResetMeetsInvariant : Prop := Consistent State.reset

/-- 10_state.md R25, R27, R28; 42_frame_codec.md R173; 43_transaction.md R215: every step keeps the invariant. -/
def Obligations.StepKeepsInvariant : Prop := ∀ s t : State, Consistent s → step s = .next t → Consistent t

/-- 00_scope.md R11: no failure of the spec is a fault: from a state that meets the invariant no step faults. -/
def Obligations.InvariantExcludesFaults : Prop := ∀ s : State, Consistent s → ∀ f : Fault, step s ≠ .fault f

/-- R201, R217: no step moves TM_STATE but along an edge of the state diagram, except a RESET; and out of a non-terminal
state the host causes no transition: its move changes no register of the engine but by a RESET. -/
def Obligations.OnlyDiagramTransitions : Prop :=
  (∀ s t : State, step s = .next t →
    isEdge s.txn.tmState t.txn.tmState = true ∨ (TakesReset s ∧ t.txn.tmState = .idle)) ∧
  (∀ s t : State, s.txn.tmState ∈ [TmState.start, .sent, .await, .backoff] → (nextTurn s).1 = .host → step s = .next t →
    TakesReset s ∨ (t.txn = s.txn ∧ t.dec = s.dec ∧ t.res = s.res ∧ t.cfg = s.cfg ∧ t.req = s.req))

/-- 20_memory.md R73, 70_reset_and_hazards.md R338: while a transaction is live no step but a RESET changes a configuration or
operand register. -/
def Obligations.OperandsFrozenWhileBusy : Prop :=
  ∀ s t : State, s.busy = true → step s = .next t → TakesReset s ∨ (t.cfg = s.cfg ∧ t.req = s.req)

/-- 92_eei_decisions.md D2, D3: time never decreases, and a step that takes a byte from RXQ without flushing it lets at least
one tick pass. -/
def Obligations.TimeNeverDecreases : Prop :=
  ∀ s t : State, step s = .next t → s.now ≤ t.now ∧
    (s.txn.tmState = .await → (nextTurn s).1 = .engine → (∃ b, s.link.rxq = b :: t.link.rxq) → s.now + 1 ≤ t.now)

/-- 60_exceptions.md R302: no rule of the engine reads the event port, and no event is taken back. -/
def Obligations.EventPortIsNeverRead : Prop :=
  (∀ s : State, silencedOutcome (step s) = silencedOutcome (step (silenced s))) ∧
  (∀ s t : State, step s = .next t → s.events <+: t.events)

/-- 43_transaction.md R216, R208: COMPLETED is entered only from AWAIT, by reading the marker that closes a region which
validates, with the address, the command and a zero status already matched. -/
def Obligations.CompletedOnlyByValidatedFrame : Prop :=
  ∀ s t : State, Consistent s → step s = .next t → t.txn.tmState = .completed → s.txn.tmState ≠ .completed →
    s.txn.tmState = .await ∧ s.dec.decState = .body ∧ s.dec.rxAddr = 0x00 ∧ s.dec.rxCmd = s.req.cmd ∧
    s.dec.rxStatus = 0x00 ∧ (∃ q, ReadsByte s 0x7E q) ∧
    ∃ f, validateRegion (closeRegion s.dec) = .frame f ∧ t.res.pay = f.payload ∧ t.res.kind = .none

/-- 20_memory.md R70, R72 under exclusive ownership (70_reset_and_hazards.md R330): only the step in START writes to the
transport, and it writes a prefix of the one request frame of the transaction. A RESET restarts the count of TX (log 16). -/
def Obligations.OnlyStartWrites : Prop :=
  ∀ s t : State, Exclusive s → step s = .next t → t.link.tx ≠ s.link.tx → ¬ TakesReset s →
    s.txn.tmState = .start ∧ (nextTurn s).1 = .engine ∧
    ∃ n, t.link.tx = s.link.tx ++ (encodeFrame 0x00 s.req.cmd (s.req.txPay.take s.req.txLen.toNat)).take n

/-- R215: every transaction reaches a terminal state, whatever moves the environment has listed. That the engine moves, and
time runs to the deadline, once no move is listed is the model's choice (log 1, log 15). -/
def Obligations.EveryTransactionEnds : Prop :=
  ∀ s : State, Consistent s → s.busy = true → s.hostq = [] →
    ∃ k t, Host.Core.run core k s = .next t ∧ t.done = true

/-- R215: a transport that never produces a marker byte makes the transaction fail with Timeout after exactly the configured
number of attempts, and every attempt writes the same frame. Who moves, and what ends the wait once no move is listed, is
the model's choice (log 1, log 15). -/
def Obligations.SilentDeviceTimesOut : Prop :=
  ∀ s : State, Consistent s → s.txn.tmState = .start → s.txn.attempt = 0 → s.hostq = [] →
    s.link.flushAnswer = .ok → s.link.writeAnswer = .all → s.link.broken = false → (∀ t ∈ s.turns, NoMarkerTurn t) →
    ∃ k t, Host.Core.run core k s = .next t ∧ t.txn.tmState = .protocolError ∧ t.res.kind = .timeout ∧
      t.res.step = .hunt ∧ t.res.attempt = s.cfg.retries ∧ t.txn.attempt = s.cfg.retries ∧ t.txn.attRem = 0 ∧
      t.link.tx = s.link.tx ++
        (List.replicate s.cfg.retries.toNat
          (encodeFrame 0x00 s.req.cmd (s.req.txPay.take s.req.txLen.toNat))).flatten

/-- R218: the blocking form returns exactly the outcome CONSUME returns after the step machine has run to DONE on the same
oracle. The timestamp of a Reading is left open. The moves that play the oracle are the model's form of it (log 1), and
so is the record `[7]` of CONSUME (log 2). -/
def Obligations.BlockingFormAgrees : Prop :=
  ∀ (s : State) (os : List AttemptOracle) (o : Nat → TxnOutcome),
    Consistent s → s.txn.tmState = .start → s.txn.attempt = 0 → s.lapse = 0 →
    s.hostq = [.op [7]] → s.turns = oracleTurns s.cfg.timeout os →
    (∀ a ∈ os, ExactOracle s.cfg.timeout s.req.cmd (encodeFrame 0x00 s.req.cmd s.req.txPay).length a) →
    (∀ ts, blockingLoop s.cfg s.req.cmd s.req.txPay ts 0 os = some (o ts)) →
    ∃ k t ts, Host.Core.run core k s = .next t ∧ t.txn.tmState = .idle ∧ t.answer = some (.outcome (o ts))
end

