-- ==== Sys2Proof/Laws/Decode.lean ====
section
/-! SUPPORT. What the code tables and the number form of Decode.lean do. -/

namespace Sys2Proof

/-! ### The escape table (30_encoding.md R94) -/

theorem esc_eq_some_iff (r c : Byte) :
    esc r = some c ↔ (r, c) ∈ [((0x7E : Byte), (0x5E : Byte)), (0x7D, 0x5D), (0x11, 0x31), (0x13, 0x33)] := by
  unfold esc
  constructor
  · intro h; split at h
    · simp_all
    · split at h
      · simp_all
      · split at h
        · simp_all
        · split at h <;> simp_all
  · intro h
    simp only [List.mem_cons, Prod.mk.injEq, List.not_mem_nil, or_false] at h
    rcases h with ⟨rfl, rfl⟩ | ⟨rfl, rfl⟩ | ⟨rfl, rfl⟩ | ⟨rfl, rfl⟩ <;> decide

theorem unesc_eq_some_iff (c r : Byte) : unesc c = some r ↔ esc r = some c := by
  rw [esc_eq_some_iff]
  unfold unesc
  constructor
  · intro h; split at h
    · simp_all
    · split at h
      · simp_all
      · split at h
        · simp_all
        · split at h <;> simp_all
  · intro h
    simp only [List.mem_cons, Prod.mk.injEq, List.not_mem_nil, or_false] at h
    rcases h with ⟨rfl, rfl⟩ | ⟨rfl, rfl⟩ | ⟨rfl, rfl⟩ | ⟨rfl, rfl⟩ <;> decide

theorem unesc_esc {r c : Byte} (h : esc r = some c) : unesc c = some r := (unesc_eq_some_iff c r).2 h

theorem esc_eq_none_iff (r : Byte) : esc r = none ↔ isReserved r = false := by
  unfold esc isReserved; split_ifs <;> simp_all

theorem unesc_eq_none_iff (c : Byte) : unesc c = none ↔ isEscCode c = false := by
  unfold unesc isEscCode; split_ifs <;> simp_all

/-- No escape code is a reserved byte. -/
theorem esc_code_not_reserved {r c : Byte} (h : esc r = some c) : isEscCode c = true ∧ isReserved c = false := by
  rw [esc_eq_some_iff] at h
  simp only [List.mem_cons, Prod.mk.injEq, List.not_mem_nil, or_false] at h
  rcases h with ⟨rfl, rfl⟩ | ⟨rfl, rfl⟩ | ⟨rfl, rfl⟩ | ⟨rfl, rfl⟩ <;> decide

/-! ### The command table (30_encoding.md R95) -/

theorem isCommand_iff (c : Byte) : isCommand c = true ↔ c ∈ [(0x00 : Byte), 0x01, 0x03, 0x80, 0x56, 0xD0, 0xD3] := by
  unfold isCommand commandIndex; split_ifs <;> simp_all

theorem commandIndex_isSome {c : Byte} (h : isCommand c = true) : ∃ i, commandIndex c = some i :=
  Option.isSome_iff_exists.1 h

/-! ### Numbers -/

theorem readNat_natBytes : ∀ (f n : Nat), n ≤ f → ∀ rest, readNat (natBytes f n ++ rest) = some (n, rest)
  | 0, n, h, rest => by
    obtain rfl : n = 0 := by omega
    rfl
  | f + 1, n, h, rest => by
    unfold natBytes
    by_cases hn : n < 128
    · simp only [hn, if_true, List.cons_append, List.nil_append, readNat, BitVec.toNat_ofNat]
      rw [if_pos (by omega)]
      congr 2; omega
    · simp only [hn, if_false, List.cons_append, readNat, BitVec.toNat_ofNat]
      rw [if_neg (by omega), readNat_natBytes f (n / 128) (by omega) rest]
      simp only
      rw [if_neg (by omega)]
      congr 2; omega

theorem readNat_writeNat (n : Nat) (rest : List Byte) : readNat (writeNat n ++ rest) = some (n, rest) :=
  readNat_natBytes n n le_rfl rest

/-- The fuel of `natBytes` does not matter once it is large enough. -/
theorem natBytes_fuel : ∀ (f g n : Nat), n ≤ f → n ≤ g → natBytes f n = natBytes g n
  | 0, 0, _, _, _ => rfl
  | 0, g + 1, n, h, _ => by
    obtain rfl : n = 0 := by omega
    rfl
  | f + 1, 0, n, _, h => by
    obtain rfl : n = 0 := by omega
    rfl
  | f + 1, g + 1, n, hf, hg => by
    unfold natBytes
    by_cases hn : n < 128
    · simp [hn]
    · simp only [hn, if_false]
      rw [natBytes_fuel f g (n / 128) (by omega) (by omega)]

theorem writeNat_small {n : Nat} (h : n < 128) : writeNat n = [BitVec.ofNat 8 n] := by
  unfold writeNat; cases n <;> simp [natBytes, h]

theorem writeNat_large {n : Nat} (h : 128 ≤ n) :
    writeNat n = BitVec.ofNat 8 (n % 128 + 128) :: writeNat (n / 128) := by
  unfold writeNat
  obtain ⟨m, rfl⟩ : ∃ m, n = m + 1 := ⟨n - 1, by omega⟩
  conv_lhs => unfold natBytes
  rw [if_neg (by omega), natBytes_fuel m ((m + 1) / 128) _ (by omega) (by omega)]

/-- What is read is written back: the decoder reads only the shortest form. -/
theorem writeNat_of_readNat : ∀ (bs : List Byte) (n : Nat) (rest : List Byte),
    readNat bs = some (n, rest) → bs = writeNat n ++ rest
  | [], n, rest, h => by simp [readNat] at h
  | b :: r, n, rest, h => by
    unfold readNat at h
    have hb := b.isLt
    split at h
    · rename_i hlt
      simp only [Option.some.injEq, Prod.mk.injEq] at h
      obtain ⟨rfl, rfl⟩ := h
      rw [writeNat_small hlt]
      simp
    · split at h
      · simp at h
      · rename_i hge m r' hm
        split at h
        · simp at h
        · rename_i hm0
          simp only [Option.some.injEq, Prod.mk.injEq] at h
          obtain ⟨rfl, rfl⟩ := h
          rw [writeNat_of_readNat r m r' hm, writeNat_large (n := b.toNat - 128 + 128 * m) (by omega)]
          have h1 : (b.toNat - 128 + 128 * m) % 128 + 128 = b.toNat := by omega
          have h2 : (b.toNat - 128 + 128 * m) / 128 = m := by omega
          rw [h1, h2]
          simp

end Sys2Proof
end

