-- ==== Sys2Proof/Laws/Codec.lean ====
section
/-! SUPPORT. What the pure functions of the units do: stuffing, the streaming unstuffer, sums and the checksum. -/

namespace Sys2Proof.Machine

open Sys2Proof

/-! ### STUFF and UNSTUFF, equation by equation (40_stuffing.md R132, R136) -/

@[simp] theorem stuff_nil : stuff [] = [] := rfl

theorem stuff_reserved {b c : Byte} (h : esc b = some c) (s : List Byte) : stuff (b :: s) = Config.ESC :: c :: stuff s := by
  simp [stuff, h]

theorem stuff_plain {b : Byte} (h : esc b = none) (s : List Byte) : stuff (b :: s) = b :: stuff s := by
  simp [stuff, h]

theorem stuff_append (a b : List Byte) : stuff (a ++ b) = stuff a ++ stuff b := by
  induction a with
  | nil => rfl
  | cons x a ih =>
    cases h : esc x with
    | none => simp [stuff_plain h, ih]
    | some c => simp [stuff_reserved h, ih]

@[simp] theorem unstuff_nil : unstuff [] = some [] := by simp [unstuff]

@[simp] theorem unstuff_esc_last : unstuff [Config.ESC] = none := by simp [unstuff]

theorem unstuff_pair {c v : Byte} (h : unesc c = some v) (s : List Byte) :
    unstuff (Config.ESC :: c :: s) = (unstuff s).map (v :: ·) := by
  simp [unstuff, h]

theorem unstuff_bad_pair {c : Byte} (h : unesc c = none) (s : List Byte) : unstuff (Config.ESC :: c :: s) = none := by
  simp [unstuff, h]

theorem unstuff_plain {b : Byte} (h : b ≠ Config.ESC) (s : List Byte) : unstuff (b :: s) = (unstuff s).map (b :: ·) := by
  cases s <;> simp [unstuff, h]

/-- Induction along the cases of UNSTUFF. -/
theorem unstuff_induction {P : List Byte → Prop} (nil : P []) (last : P [Config.ESC])
    (pair : ∀ c v s, unesc c = some v → P s → P (Config.ESC :: c :: s))
    (bad : ∀ c s, unesc c = none → P (Config.ESC :: c :: s))
    (plain : ∀ b s, b ≠ Config.ESC → P s → P (b :: s)) : ∀ s, P s := by
  intro s
  induction hn : s.length using Nat.strongRecOn generalizing s with
  | _ n ih =>
    match s, hn with
    | [], _ => exact nil
    | b :: s, hn =>
      by_cases hb : b = Config.ESC
      · subst hb
        match s, hn with
        | [], _ => exact last
        | c :: s, hn =>
          cases hc : unesc c with
          | none => exact bad c s hc
          | some v => exact pair c v s hc (ih s.length (by simp at hn; omega) s rfl)
      · exact plain b s hb (ih s.length (by simp at hn; omega) s rfl)

/-! ### Sums and the checksum (41_checksum.md R151, R153) -/

theorem sumBytes_eq (s : List Byte) : sumBytes s = (s.map BitVec.toNat).sum := by
  induction s with
  | nil => rfl
  | cons b s ih => simp [sumBytes, ih]

@[simp] theorem sumBytes_append (a b : List Byte) : sumBytes (a ++ b) = sumBytes a + sumBytes b := by
  simp [sumBytes_eq]

@[simp] theorem sumBytes_cons (b : Byte) (s : List Byte) : sumBytes (b :: s) = b.toNat + sumBytes s := rfl

@[simp] theorem sumBytes_nil : sumBytes [] = 0 := rfl

theorem checksum_toNat (h p : List Byte) : (checksum h p).toNat = 255 - (sumBytes h + sumBytes p) % 256 := by
  unfold checksum; rw [BitVec.toNat_ofNat]; omega

/-- The sum form: the received byte is the checksum exactly when everything sums to 255 in the low eight bits. -/
theorem eq_checksum_iff (h p : List Byte) (k : Byte) :
    k = checksum h p ↔ (sumBytes h + sumBytes p + k.toNat) % 256 = 255 := by
  have hk := k.isLt
  have hc := checksum_toNat h p
  constructor
  · rintro rfl; omega
  · intro hs; apply BitVec.eq_of_toNat_eq; omega

theorem chkverify_eq_none_iff (a c l : Byte) (p : List Byte) (k : Byte) :
    chkverify a c l p k = none ↔ checksum [a, c, l] p = k := by
  unfold chkverify; split <;> simp_all

theorem lengthByte_toNat {p : List Byte} (h : p.length ≤ 255) : (lengthByte p).toNat = p.length := by
  unfold lengthByte; rw [BitVec.toNat_ofNat]; omega

/-! ### The streaming unstuffer (40_stuffing.md R137) -/

@[simp] theorem push_decState (v : Byte) (d : DecRegs) : (push v d).decState = d.decState := rfl
@[simp] theorem push_rxAddr (v : Byte) (d : DecRegs) : (push v d).rxAddr = d.rxAddr := rfl
@[simp] theorem push_rxCmd (v : Byte) (d : DecRegs) : (push v d).rxCmd = d.rxCmd := rfl
@[simp] theorem push_rxStatus (v : Byte) (d : DecRegs) : (push v d).rxStatus = d.rxStatus := rfl
@[simp] theorem push_escPend (v : Byte) (d : DecRegs) : (push v d).escPend = d.escPend := rfl
@[simp] theorem push_malformed (v : Byte) (d : DecRegs) : (push v d).malformed = d.malformed := rfl

theorem feed_introducer {d : DecRegs} (h : d.escPend = false) : feed Config.ESC d = { d with escPend := true } := by
  simp [feed, h]

theorem feed_plain {b : Byte} {d : DecRegs} (hb : b ≠ Config.ESC) (h : d.escPend = false) : feed b d = push b d := by
  simp [feed, h, hb]

theorem feed_code {c v : Byte} {d : DecRegs} (hc : unesc c = some v) (h : d.escPend = true) :
    feed c d = push v { d with escPend := false } := by
  simp [feed, h, hc]

theorem feed_bad_code {c : Byte} {d : DecRegs} (hc : unesc c = none) (h : d.escPend = true) :
    feed c d = { d with escPend := false, malformed := true } := by
  simp [feed, h, hc]

/-- What a region byte cannot touch: the decode state and the header bytes. -/
theorem feed_header (b : Byte) (d : DecRegs) :
    (feed b d).decState = d.decState ∧ (feed b d).rxAddr = d.rxAddr ∧ (feed b d).rxCmd = d.rxCmd ∧
      (feed b d).rxStatus = d.rxStatus := by
  unfold feed; split
  · split <;> exact ⟨rfl, rfl, rfl, rfl⟩
  · split <;> exact ⟨rfl, rfl, rfl, rfl⟩

/-- MALFORMED is sticky within a decode (10_state.md R29). -/
theorem feed_malformed_sticky (b : Byte) {d : DecRegs} (h : d.malformed = true) : (feed b d).malformed = true := by
  unfold feed; split
  · split <;> simp [h]
  · split <;> simp [h]

theorem foldl_feed_malformed_sticky (s : List Byte) :
    ∀ {d : DecRegs}, d.malformed = true → (s.foldl (fun d b => feed b d) d).malformed = true := by
  induction s with
  | nil => intro d h; exact h
  | cons b s ih => intro d h; exact ih (feed_malformed_sticky b h)

theorem foldl_feed_header (s : List Byte) :
    ∀ d : DecRegs, let e := s.foldl (fun d b => feed b d) d
      e.decState = d.decState ∧ e.rxAddr = d.rxAddr ∧ e.rxCmd = d.rxCmd ∧ e.rxStatus = d.rxStatus := by
  induction s with
  | nil => intro d; exact ⟨rfl, rfl, rfl, rfl⟩
  | cons b s ih =>
    intro d
    obtain ⟨h1, h2, h3, h4⟩ := feed_header b d
    obtain ⟨g1, g2, g3, g4⟩ := ih (feed b d)
    exact ⟨g1.trans h1, g2.trans h2, g3.trans h3, g4.trans h4⟩

theorem closeRegion_malformed_sticky {d : DecRegs} (h : d.malformed = true) : (closeRegion d).malformed = true := by
  unfold closeRegion; split <;> simp [h]

theorem closeRegion_header (d : DecRegs) :
    (closeRegion d).decState = d.decState ∧ (closeRegion d).rxAddr = d.rxAddr ∧ (closeRegion d).rxCmd = d.rxCmd ∧
      (closeRegion d).rxStatus = d.rxStatus ∧ (closeRegion d).rxBuf = d.rxBuf ∧ (closeRegion d).rxCnt = d.rxCnt := by
  unfold closeRegion; split <;> exact ⟨rfl, rfl, rfl, rfl, rfl, rfl⟩

/-- RXBUF and RXCNT hold the unstuffed bytes `u` as far as the buffer and the count reach (10_state.md R28). -/
structure Holds (d : DecRegs) (u : List Byte) : Prop where
  buf : d.rxBuf = u.take 257
  cnt : d.rxCnt = min u.length 258
  pend : d.escPend = false
  sound : d.malformed = false

theorem holds_push {d : DecRegs} {u : List Byte} (h : Holds d u) (v : Byte) : Holds (push v d) (u ++ [v]) := by
  obtain ⟨h1, h2, h3, h4⟩ := h
  refine ⟨?_, ?_, h3, h4⟩
  · simp only [push, Config.RXBUF_SIZE, h1, h2]
    by_cases hu : u.length < 257
    · rw [if_pos (by omega), List.take_of_length_le (by omega), List.take_of_length_le (by simp; omega)]
    · rw [if_neg (by omega), List.take_append_of_le_length (by omega)]
  · simp only [push, Config.RXCNT_MAX, h2, List.length_append, List.length_cons, List.length_nil]
    split <;> omega

/-- The fold over a region, from any point at which the registers hold `u`. -/
theorem foldl_feed_spec (s : List Byte) : ∀ (d : DecRegs) (u : List Byte), Holds d u →
    (∀ w, unstuff s = some w → Holds (s.foldl (fun d b => feed b d) d) (u ++ w)) ∧
    (unstuff s = none → (closeRegion (s.foldl (fun d b => feed b d) d)).malformed = true) := by
  induction s using unstuff_induction with
  | nil => intro d u h; exact ⟨by simpa using h, by simp⟩
  | last =>
    intro d u h
    refine ⟨by simp, fun _ => ?_⟩
    simp [feed_introducer h.pend, closeRegion]
  | pair c v s hc ih =>
    intro d u h
    have hp : Holds (push v d) (u ++ [v]) := holds_push h v
    have hstep : (Config.ESC :: c :: s).foldl (fun d b => feed b d) d = s.foldl (fun d b => feed b d) (push v d) := by
      simp only [List.foldl_cons, feed_introducer h.pend]
      rw [feed_code hc rfl]
      congr 1
      have := h.pend
      cases d; simp_all
    obtain ⟨i1, i2⟩ := ih (push v d) (u ++ [v]) hp
    rw [hstep, unstuff_pair hc]
    refine ⟨fun w hw => ?_, fun hn => i2 (by simpa using hn)⟩
    obtain ⟨w', hw', rfl⟩ := Option.map_eq_some_iff.1 hw
    simpa using i1 w' hw'
  | bad c s hc =>
    intro d u h
    refine ⟨fun w hw => by simp [unstuff_bad_pair hc] at hw, fun _ => ?_⟩
    simp only [List.foldl_cons, feed_introducer h.pend]
    rw [feed_bad_code hc rfl]
    exact closeRegion_malformed_sticky (foldl_feed_malformed_sticky s rfl)
  | plain b s hb ih =>
    intro d u h
    obtain ⟨i1, i2⟩ := ih (push b d) (u ++ [b]) (holds_push h b)
    rw [List.foldl_cons, feed_plain hb h.pend, unstuff_plain hb]
    refine ⟨fun w hw => ?_, fun hn => i2 (by simpa using hn)⟩
    obtain ⟨w', hw', rfl⟩ := Option.map_eq_some_iff.1 hw
    simpa using i1 w' hw'

end Sys2Proof.Machine
end

