-- ==== Sys2Proof/Laws/State.lean ====
section
/-! SUPPORT. One lemma per field per update of State, true by rfl, so that no proof unfolds a record update. -/

namespace Sys2Proof.Machine

/-! ### setCfg -/

@[simp] theorem State.setCfg_cfg (s : State) (x : CfgRegs) : (s.setCfg x).cfg = x := rfl
@[simp] theorem State.setCfg_req (s : State) (x : CfgRegs) : (s.setCfg x).req = s.req := rfl
@[simp] theorem State.setCfg_txn (s : State) (x : CfgRegs) : (s.setCfg x).txn = s.txn := rfl
@[simp] theorem State.setCfg_dec (s : State) (x : CfgRegs) : (s.setCfg x).dec = s.dec := rfl
@[simp] theorem State.setCfg_res (s : State) (x : CfgRegs) : (s.setCfg x).res = s.res := rfl
@[simp] theorem State.setCfg_link (s : State) (x : CfgRegs) : (s.setCfg x).link = s.link := rfl
@[simp] theorem State.setCfg_now (s : State) (x : CfgRegs) : (s.setCfg x).now = s.now := rfl
@[simp] theorem State.setCfg_lapse (s : State) (x : CfgRegs) : (s.setCfg x).lapse = s.lapse := rfl
@[simp] theorem State.setCfg_hostq (s : State) (x : CfgRegs) : (s.setCfg x).hostq = s.hostq := rfl
@[simp] theorem State.setCfg_turns (s : State) (x : CfgRegs) : (s.setCfg x).turns = s.turns := rfl
@[simp] theorem State.setCfg_answer (s : State) (x : CfgRegs) : (s.setCfg x).answer = s.answer := rfl
@[simp] theorem State.setCfg_events (s : State) (x : CfgRegs) : (s.setCfg x).events = s.events := rfl
@[simp] theorem State.setCfg_draws (s : State) (x : CfgRegs) : (s.setCfg x).draws = s.draws := rfl

/-! ### setReq -/

@[simp] theorem State.setReq_cfg (s : State) (x : ReqRegs) : (s.setReq x).cfg = s.cfg := rfl
@[simp] theorem State.setReq_req (s : State) (x : ReqRegs) : (s.setReq x).req = x := rfl
@[simp] theorem State.setReq_txn (s : State) (x : ReqRegs) : (s.setReq x).txn = s.txn := rfl
@[simp] theorem State.setReq_dec (s : State) (x : ReqRegs) : (s.setReq x).dec = s.dec := rfl
@[simp] theorem State.setReq_res (s : State) (x : ReqRegs) : (s.setReq x).res = s.res := rfl
@[simp] theorem State.setReq_link (s : State) (x : ReqRegs) : (s.setReq x).link = s.link := rfl
@[simp] theorem State.setReq_now (s : State) (x : ReqRegs) : (s.setReq x).now = s.now := rfl
@[simp] theorem State.setReq_lapse (s : State) (x : ReqRegs) : (s.setReq x).lapse = s.lapse := rfl
@[simp] theorem State.setReq_hostq (s : State) (x : ReqRegs) : (s.setReq x).hostq = s.hostq := rfl
@[simp] theorem State.setReq_turns (s : State) (x : ReqRegs) : (s.setReq x).turns = s.turns := rfl
@[simp] theorem State.setReq_answer (s : State) (x : ReqRegs) : (s.setReq x).answer = s.answer := rfl
@[simp] theorem State.setReq_events (s : State) (x : ReqRegs) : (s.setReq x).events = s.events := rfl
@[simp] theorem State.setReq_draws (s : State) (x : ReqRegs) : (s.setReq x).draws = s.draws := rfl

/-! ### setTxn -/

@[simp] theorem State.setTxn_cfg (s : State) (x : TxnRegs) : (s.setTxn x).cfg = s.cfg := rfl
@[simp] theorem State.setTxn_req (s : State) (x : TxnRegs) : (s.setTxn x).req = s.req := rfl
@[simp] theorem State.setTxn_txn (s : State) (x : TxnRegs) : (s.setTxn x).txn = x := rfl
@[simp] theorem State.setTxn_dec (s : State) (x : TxnRegs) : (s.setTxn x).dec = s.dec := rfl
@[simp] theorem State.setTxn_res (s : State) (x : TxnRegs) : (s.setTxn x).res = s.res := rfl
@[simp] theorem State.setTxn_link (s : State) (x : TxnRegs) : (s.setTxn x).link = s.link := rfl
@[simp] theorem State.setTxn_now (s : State) (x : TxnRegs) : (s.setTxn x).now = s.now := rfl
@[simp] theorem State.setTxn_lapse (s : State) (x : TxnRegs) : (s.setTxn x).lapse = s.lapse := rfl
@[simp] theorem State.setTxn_hostq (s : State) (x : TxnRegs) : (s.setTxn x).hostq = s.hostq := rfl
@[simp] theorem State.setTxn_turns (s : State) (x : TxnRegs) : (s.setTxn x).turns = s.turns := rfl
@[simp] theorem State.setTxn_answer (s : State) (x : TxnRegs) : (s.setTxn x).answer = s.answer := rfl
@[simp] theorem State.setTxn_events (s : State) (x : TxnRegs) : (s.setTxn x).events = s.events := rfl
@[simp] theorem State.setTxn_draws (s : State) (x : TxnRegs) : (s.setTxn x).draws = s.draws := rfl

/-! ### setTm -/

@[simp] theorem State.setTm_cfg (s : State) (x : TmState) : (s.setTm x).cfg = s.cfg := rfl
@[simp] theorem State.setTm_req (s : State) (x : TmState) : (s.setTm x).req = s.req := rfl
@[simp] theorem State.setTm_txn (s : State) (x : TmState) : (s.setTm x).txn = { s.txn with tmState := x } := rfl
@[simp] theorem State.setTm_dec (s : State) (x : TmState) : (s.setTm x).dec = s.dec := rfl
@[simp] theorem State.setTm_res (s : State) (x : TmState) : (s.setTm x).res = s.res := rfl
@[simp] theorem State.setTm_link (s : State) (x : TmState) : (s.setTm x).link = s.link := rfl
@[simp] theorem State.setTm_now (s : State) (x : TmState) : (s.setTm x).now = s.now := rfl
@[simp] theorem State.setTm_lapse (s : State) (x : TmState) : (s.setTm x).lapse = s.lapse := rfl
@[simp] theorem State.setTm_hostq (s : State) (x : TmState) : (s.setTm x).hostq = s.hostq := rfl
@[simp] theorem State.setTm_turns (s : State) (x : TmState) : (s.setTm x).turns = s.turns := rfl
@[simp] theorem State.setTm_answer (s : State) (x : TmState) : (s.setTm x).answer = s.answer := rfl
@[simp] theorem State.setTm_events (s : State) (x : TmState) : (s.setTm x).events = s.events := rfl
@[simp] theorem State.setTm_draws (s : State) (x : TmState) : (s.setTm x).draws = s.draws := rfl

/-! ### setDec -/

@[simp] theorem State.setDec_cfg (s : State) (x : DecRegs) : (s.setDec x).cfg = s.cfg := rfl
@[simp] theorem State.setDec_req (s : State) (x : DecRegs) : (s.setDec x).req = s.req := rfl
@[simp] theorem State.setDec_txn (s : State) (x : DecRegs) : (s.setDec x).txn = s.txn := rfl
@[simp] theorem State.setDec_dec (s : State) (x : DecRegs) : (s.setDec x).dec = x := rfl
@[simp] theorem State.setDec_res (s : State) (x : DecRegs) : (s.setDec x).res = s.res := rfl
@[simp] theorem State.setDec_link (s : State) (x : DecRegs) : (s.setDec x).link = s.link := rfl
@[simp] theorem State.setDec_now (s : State) (x : DecRegs) : (s.setDec x).now = s.now := rfl
@[simp] theorem State.setDec_lapse (s : State) (x : DecRegs) : (s.setDec x).lapse = s.lapse := rfl
@[simp] theorem State.setDec_hostq (s : State) (x : DecRegs) : (s.setDec x).hostq = s.hostq := rfl
@[simp] theorem State.setDec_turns (s : State) (x : DecRegs) : (s.setDec x).turns = s.turns := rfl
@[simp] theorem State.setDec_answer (s : State) (x : DecRegs) : (s.setDec x).answer = s.answer := rfl
@[simp] theorem State.setDec_events (s : State) (x : DecRegs) : (s.setDec x).events = s.events := rfl
@[simp] theorem State.setDec_draws (s : State) (x : DecRegs) : (s.setDec x).draws = s.draws := rfl

/-! ### setRes -/

@[simp] theorem State.setRes_cfg (s : State) (x : ResRegs) : (s.setRes x).cfg = s.cfg := rfl
@[simp] theorem State.setRes_req (s : State) (x : ResRegs) : (s.setRes x).req = s.req := rfl
@[simp] theorem State.setRes_txn (s : State) (x : ResRegs) : (s.setRes x).txn = s.txn := rfl
@[simp] theorem State.setRes_dec (s : State) (x : ResRegs) : (s.setRes x).dec = s.dec := rfl
@[simp] theorem State.setRes_res (s : State) (x : ResRegs) : (s.setRes x).res = x := rfl
@[simp] theorem State.setRes_link (s : State) (x : ResRegs) : (s.setRes x).link = s.link := rfl
@[simp] theorem State.setRes_now (s : State) (x : ResRegs) : (s.setRes x).now = s.now := rfl
@[simp] theorem State.setRes_lapse (s : State) (x : ResRegs) : (s.setRes x).lapse = s.lapse := rfl
@[simp] theorem State.setRes_hostq (s : State) (x : ResRegs) : (s.setRes x).hostq = s.hostq := rfl
@[simp] theorem State.setRes_turns (s : State) (x : ResRegs) : (s.setRes x).turns = s.turns := rfl
@[simp] theorem State.setRes_answer (s : State) (x : ResRegs) : (s.setRes x).answer = s.answer := rfl
@[simp] theorem State.setRes_events (s : State) (x : ResRegs) : (s.setRes x).events = s.events := rfl
@[simp] theorem State.setRes_draws (s : State) (x : ResRegs) : (s.setRes x).draws = s.draws := rfl

/-! ### setLink -/

@[simp] theorem State.setLink_cfg (s : State) (x : Link) : (s.setLink x).cfg = s.cfg := rfl
@[simp] theorem State.setLink_req (s : State) (x : Link) : (s.setLink x).req = s.req := rfl
@[simp] theorem State.setLink_txn (s : State) (x : Link) : (s.setLink x).txn = s.txn := rfl
@[simp] theorem State.setLink_dec (s : State) (x : Link) : (s.setLink x).dec = s.dec := rfl
@[simp] theorem State.setLink_res (s : State) (x : Link) : (s.setLink x).res = s.res := rfl
@[simp] theorem State.setLink_link (s : State) (x : Link) : (s.setLink x).link = x := rfl
@[simp] theorem State.setLink_now (s : State) (x : Link) : (s.setLink x).now = s.now := rfl
@[simp] theorem State.setLink_lapse (s : State) (x : Link) : (s.setLink x).lapse = s.lapse := rfl
@[simp] theorem State.setLink_hostq (s : State) (x : Link) : (s.setLink x).hostq = s.hostq := rfl
@[simp] theorem State.setLink_turns (s : State) (x : Link) : (s.setLink x).turns = s.turns := rfl
@[simp] theorem State.setLink_answer (s : State) (x : Link) : (s.setLink x).answer = s.answer := rfl
@[simp] theorem State.setLink_events (s : State) (x : Link) : (s.setLink x).events = s.events := rfl
@[simp] theorem State.setLink_draws (s : State) (x : Link) : (s.setLink x).draws = s.draws := rfl

/-! ### setRxq -/

@[simp] theorem State.setRxq_cfg (s : State) (x : List Byte) : (s.setRxq x).cfg = s.cfg := rfl
@[simp] theorem State.setRxq_req (s : State) (x : List Byte) : (s.setRxq x).req = s.req := rfl
@[simp] theorem State.setRxq_txn (s : State) (x : List Byte) : (s.setRxq x).txn = s.txn := rfl
@[simp] theorem State.setRxq_dec (s : State) (x : List Byte) : (s.setRxq x).dec = s.dec := rfl
@[simp] theorem State.setRxq_res (s : State) (x : List Byte) : (s.setRxq x).res = s.res := rfl
@[simp] theorem State.setRxq_link (s : State) (x : List Byte) : (s.setRxq x).link = { s.link with rxq := x } := rfl
@[simp] theorem State.setRxq_now (s : State) (x : List Byte) : (s.setRxq x).now = s.now := rfl
@[simp] theorem State.setRxq_lapse (s : State) (x : List Byte) : (s.setRxq x).lapse = s.lapse := rfl
@[simp] theorem State.setRxq_hostq (s : State) (x : List Byte) : (s.setRxq x).hostq = s.hostq := rfl
@[simp] theorem State.setRxq_turns (s : State) (x : List Byte) : (s.setRxq x).turns = s.turns := rfl
@[simp] theorem State.setRxq_answer (s : State) (x : List Byte) : (s.setRxq x).answer = s.answer := rfl
@[simp] theorem State.setRxq_events (s : State) (x : List Byte) : (s.setRxq x).events = s.events := rfl
@[simp] theorem State.setRxq_draws (s : State) (x : List Byte) : (s.setRxq x).draws = s.draws := rfl

/-! ### setNow -/

@[simp] theorem State.setNow_cfg (s : State) (x : Nat) : (s.setNow x).cfg = s.cfg := rfl
@[simp] theorem State.setNow_req (s : State) (x : Nat) : (s.setNow x).req = s.req := rfl
@[simp] theorem State.setNow_txn (s : State) (x : Nat) : (s.setNow x).txn = s.txn := rfl
@[simp] theorem State.setNow_dec (s : State) (x : Nat) : (s.setNow x).dec = s.dec := rfl
@[simp] theorem State.setNow_res (s : State) (x : Nat) : (s.setNow x).res = s.res := rfl
@[simp] theorem State.setNow_link (s : State) (x : Nat) : (s.setNow x).link = s.link := rfl
@[simp] theorem State.setNow_now (s : State) (x : Nat) : (s.setNow x).now = x := rfl
@[simp] theorem State.setNow_lapse (s : State) (x : Nat) : (s.setNow x).lapse = s.lapse := rfl
@[simp] theorem State.setNow_hostq (s : State) (x : Nat) : (s.setNow x).hostq = s.hostq := rfl
@[simp] theorem State.setNow_turns (s : State) (x : Nat) : (s.setNow x).turns = s.turns := rfl
@[simp] theorem State.setNow_answer (s : State) (x : Nat) : (s.setNow x).answer = s.answer := rfl
@[simp] theorem State.setNow_events (s : State) (x : Nat) : (s.setNow x).events = s.events := rfl
@[simp] theorem State.setNow_draws (s : State) (x : Nat) : (s.setNow x).draws = s.draws := rfl

/-! ### setLapse -/

@[simp] theorem State.setLapse_cfg (s : State) (x : Nat) : (s.setLapse x).cfg = s.cfg := rfl
@[simp] theorem State.setLapse_req (s : State) (x : Nat) : (s.setLapse x).req = s.req := rfl
@[simp] theorem State.setLapse_txn (s : State) (x : Nat) : (s.setLapse x).txn = s.txn := rfl
@[simp] theorem State.setLapse_dec (s : State) (x : Nat) : (s.setLapse x).dec = s.dec := rfl
@[simp] theorem State.setLapse_res (s : State) (x : Nat) : (s.setLapse x).res = s.res := rfl
@[simp] theorem State.setLapse_link (s : State) (x : Nat) : (s.setLapse x).link = s.link := rfl
@[simp] theorem State.setLapse_now (s : State) (x : Nat) : (s.setLapse x).now = s.now := rfl
@[simp] theorem State.setLapse_lapse (s : State) (x : Nat) : (s.setLapse x).lapse = x := rfl
@[simp] theorem State.setLapse_hostq (s : State) (x : Nat) : (s.setLapse x).hostq = s.hostq := rfl
@[simp] theorem State.setLapse_turns (s : State) (x : Nat) : (s.setLapse x).turns = s.turns := rfl
@[simp] theorem State.setLapse_answer (s : State) (x : Nat) : (s.setLapse x).answer = s.answer := rfl
@[simp] theorem State.setLapse_events (s : State) (x : Nat) : (s.setLapse x).events = s.events := rfl
@[simp] theorem State.setLapse_draws (s : State) (x : Nat) : (s.setLapse x).draws = s.draws := rfl

/-! ### setHostq -/

@[simp] theorem State.setHostq_cfg (s : State) (x : List HostRecord) : (s.setHostq x).cfg = s.cfg := rfl
@[simp] theorem State.setHostq_req (s : State) (x : List HostRecord) : (s.setHostq x).req = s.req := rfl
@[simp] theorem State.setHostq_txn (s : State) (x : List HostRecord) : (s.setHostq x).txn = s.txn := rfl
@[simp] theorem State.setHostq_dec (s : State) (x : List HostRecord) : (s.setHostq x).dec = s.dec := rfl
@[simp] theorem State.setHostq_res (s : State) (x : List HostRecord) : (s.setHostq x).res = s.res := rfl
@[simp] theorem State.setHostq_link (s : State) (x : List HostRecord) : (s.setHostq x).link = s.link := rfl
@[simp] theorem State.setHostq_now (s : State) (x : List HostRecord) : (s.setHostq x).now = s.now := rfl
@[simp] theorem State.setHostq_lapse (s : State) (x : List HostRecord) : (s.setHostq x).lapse = s.lapse := rfl
@[simp] theorem State.setHostq_hostq (s : State) (x : List HostRecord) : (s.setHostq x).hostq = x := rfl
@[simp] theorem State.setHostq_turns (s : State) (x : List HostRecord) : (s.setHostq x).turns = s.turns := rfl
@[simp] theorem State.setHostq_answer (s : State) (x : List HostRecord) : (s.setHostq x).answer = s.answer := rfl
@[simp] theorem State.setHostq_events (s : State) (x : List HostRecord) : (s.setHostq x).events = s.events := rfl
@[simp] theorem State.setHostq_draws (s : State) (x : List HostRecord) : (s.setHostq x).draws = s.draws := rfl

/-! ### setTurns -/

@[simp] theorem State.setTurns_cfg (s : State) (x : List Turn) : (s.setTurns x).cfg = s.cfg := rfl
@[simp] theorem State.setTurns_req (s : State) (x : List Turn) : (s.setTurns x).req = s.req := rfl
@[simp] theorem State.setTurns_txn (s : State) (x : List Turn) : (s.setTurns x).txn = s.txn := rfl
@[simp] theorem State.setTurns_dec (s : State) (x : List Turn) : (s.setTurns x).dec = s.dec := rfl
@[simp] theorem State.setTurns_res (s : State) (x : List Turn) : (s.setTurns x).res = s.res := rfl
@[simp] theorem State.setTurns_link (s : State) (x : List Turn) : (s.setTurns x).link = s.link := rfl
@[simp] theorem State.setTurns_now (s : State) (x : List Turn) : (s.setTurns x).now = s.now := rfl
@[simp] theorem State.setTurns_lapse (s : State) (x : List Turn) : (s.setTurns x).lapse = s.lapse := rfl
@[simp] theorem State.setTurns_hostq (s : State) (x : List Turn) : (s.setTurns x).hostq = s.hostq := rfl
@[simp] theorem State.setTurns_turns (s : State) (x : List Turn) : (s.setTurns x).turns = x := rfl
@[simp] theorem State.setTurns_answer (s : State) (x : List Turn) : (s.setTurns x).answer = s.answer := rfl
@[simp] theorem State.setTurns_events (s : State) (x : List Turn) : (s.setTurns x).events = s.events := rfl
@[simp] theorem State.setTurns_draws (s : State) (x : List Turn) : (s.setTurns x).draws = s.draws := rfl

/-! ### answerWith -/

@[simp] theorem State.answerWith_cfg (s : State) (x : Answer) : (s.answerWith x).cfg = s.cfg := rfl
@[simp] theorem State.answerWith_req (s : State) (x : Answer) : (s.answerWith x).req = s.req := rfl
@[simp] theorem State.answerWith_txn (s : State) (x : Answer) : (s.answerWith x).txn = s.txn := rfl
@[simp] theorem State.answerWith_dec (s : State) (x : Answer) : (s.answerWith x).dec = s.dec := rfl
@[simp] theorem State.answerWith_res (s : State) (x : Answer) : (s.answerWith x).res = s.res := rfl
@[simp] theorem State.answerWith_link (s : State) (x : Answer) : (s.answerWith x).link = s.link := rfl
@[simp] theorem State.answerWith_now (s : State) (x : Answer) : (s.answerWith x).now = s.now := rfl
@[simp] theorem State.answerWith_lapse (s : State) (x : Answer) : (s.answerWith x).lapse = s.lapse := rfl
@[simp] theorem State.answerWith_hostq (s : State) (x : Answer) : (s.answerWith x).hostq = s.hostq := rfl
@[simp] theorem State.answerWith_turns (s : State) (x : Answer) : (s.answerWith x).turns = s.turns := rfl
@[simp] theorem State.answerWith_answer (s : State) (x : Answer) : (s.answerWith x).answer = some x := rfl
@[simp] theorem State.answerWith_events (s : State) (x : Answer) : (s.answerWith x).events = s.events := rfl
@[simp] theorem State.answerWith_draws (s : State) (x : Answer) : (s.answerWith x).draws = s.draws := rfl

/-! ### emit -/

@[simp] theorem State.emit_cfg (s : State) (x : Event) : (s.emit x).cfg = s.cfg := rfl
@[simp] theorem State.emit_req (s : State) (x : Event) : (s.emit x).req = s.req := rfl
@[simp] theorem State.emit_txn (s : State) (x : Event) : (s.emit x).txn = s.txn := rfl
@[simp] theorem State.emit_dec (s : State) (x : Event) : (s.emit x).dec = s.dec := rfl
@[simp] theorem State.emit_res (s : State) (x : Event) : (s.emit x).res = s.res := rfl
@[simp] theorem State.emit_link (s : State) (x : Event) : (s.emit x).link = s.link := rfl
@[simp] theorem State.emit_now (s : State) (x : Event) : (s.emit x).now = s.now := rfl
@[simp] theorem State.emit_lapse (s : State) (x : Event) : (s.emit x).lapse = s.lapse := rfl
@[simp] theorem State.emit_hostq (s : State) (x : Event) : (s.emit x).hostq = s.hostq := rfl
@[simp] theorem State.emit_turns (s : State) (x : Event) : (s.emit x).turns = s.turns := rfl
@[simp] theorem State.emit_answer (s : State) (x : Event) : (s.emit x).answer = s.answer := rfl
@[simp] theorem State.emit_events (s : State) (x : Event) : (s.emit x).events = s.events ++ [x] := rfl
@[simp] theorem State.emit_draws (s : State) (x : Event) : (s.emit x).draws = s.draws := rfl

/-! ### draw -/

@[simp] theorem State.draw_cfg (s : State) (x : Nat) : (s.draw x).cfg = s.cfg := rfl
@[simp] theorem State.draw_req (s : State) (x : Nat) : (s.draw x).req = s.req := rfl
@[simp] theorem State.draw_txn (s : State) (x : Nat) : (s.draw x).txn = s.txn := rfl
@[simp] theorem State.draw_dec (s : State) (x : Nat) : (s.draw x).dec = s.dec := rfl
@[simp] theorem State.draw_res (s : State) (x : Nat) : (s.draw x).res = s.res := rfl
@[simp] theorem State.draw_link (s : State) (x : Nat) : (s.draw x).link = s.link := rfl
@[simp] theorem State.draw_now (s : State) (x : Nat) : (s.draw x).now = s.now := rfl
@[simp] theorem State.draw_lapse (s : State) (x : Nat) : (s.draw x).lapse = s.lapse := rfl
@[simp] theorem State.draw_hostq (s : State) (x : Nat) : (s.draw x).hostq = s.hostq := rfl
@[simp] theorem State.draw_turns (s : State) (x : Nat) : (s.draw x).turns = s.turns := rfl
@[simp] theorem State.draw_answer (s : State) (x : Nat) : (s.draw x).answer = s.answer := rfl
@[simp] theorem State.draw_events (s : State) (x : Nat) : (s.draw x).events = s.events := rfl
@[simp] theorem State.draw_draws (s : State) (x : Nat) : (s.draw x).draws = s.draws + x := rfl

end Sys2Proof.Machine
end

