-- ==== Sys2Proof/Laws/Ops.lean ====
section
/-! SUPPORT. What each shared operation of Machine/Ops.lean does, said once: the lemmas other proofs cite instead of
unfolding it. -/

namespace Sys2Proof.Machine

open Sys2Proof

/-! ### The transport primitives -/

theorem rxByte_broken {s : State} (h : s.link.broken = true) : rxByte s = (some .error, linger s) := by
  simp [rxByte, h]

theorem rxByte_expired {s : State} (h : s.link.broken = false) (hd : s.txn.deadline ≤ s.now) :
    rxByte s = (some .timeout, linger s) := by
  simp [rxByte, h, hd]

theorem rxByte_byte {s : State} {b : Byte} {q : List Byte} (h : s.link.broken = false) (hd : s.now < s.txn.deadline)
    (hq : s.link.rxq = b :: q) : rxByte s = (some (.byte b), (s.setRxq q).setNow (s.now + 1 + s.lapse)) := by
  simp [rxByte, h, hd, hq]

theorem rxByte_dry {s : State} (h : s.link.broken = false) (hd : s.now < s.txn.deadline) (hq : s.link.rxq = [])
    (ht : s.turns = []) : rxByte s = (some .timeout, s.setNow (s.txn.deadline + s.lapse)) := by
  simp [rxByte, h, hd, hq, ht]

theorem rxByte_waits {s : State} (h : s.link.broken = false) (hd : s.now < s.txn.deadline) (hq : s.link.rxq = [])
    (ht : s.turns ≠ []) : rxByte s = (none, s) := by
  cases hs : s.turns with
  | nil => exact absurd hs ht
  | cons t ts => simp [rxByte, h, hd, hq, hs]

/-- Everything RxByte can do (20_memory.md R66). -/
theorem rxByte_cases (s : State) :
    (s.link.broken = true ∧ rxByte s = (some .error, linger s)) ∨
    (s.link.broken = false ∧ s.txn.deadline ≤ s.now ∧ rxByte s = (some .timeout, linger s)) ∨
    (∃ b q, s.link.broken = false ∧ s.now < s.txn.deadline ∧ s.link.rxq = b :: q ∧
      rxByte s = (some (.byte b), (s.setRxq q).setNow (s.now + 1 + s.lapse))) ∨
    (s.link.broken = false ∧ s.now < s.txn.deadline ∧ s.link.rxq = [] ∧ s.turns = [] ∧
      rxByte s = (some .timeout, s.setNow (s.txn.deadline + s.lapse))) ∨
    (s.link.broken = false ∧ s.now < s.txn.deadline ∧ s.link.rxq = [] ∧ s.turns ≠ [] ∧ rxByte s = (none, s)) := by
  cases hb : s.link.broken with
  | true => exact .inl ⟨rfl, rxByte_broken hb⟩
  | false =>
    by_cases hd : s.txn.deadline ≤ s.now
    · exact .inr (.inl ⟨rfl, hd, rxByte_expired hb hd⟩)
    · have hd := Nat.lt_of_not_le hd
      cases hq : s.link.rxq with
      | cons b q => exact .inr (.inr (.inl ⟨b, q, rfl, hd, rfl, rxByte_byte hb hd hq⟩))
      | nil =>
        by_cases ht : s.turns = []
        · exact .inr (.inr (.inr (.inl ⟨rfl, hd, rfl, ht, rxByte_dry hb hd hq ht⟩)))
        · exact .inr (.inr (.inr (.inr ⟨rfl, hd, rfl, ht, rxByte_waits hb hd hq ht⟩)))

/-- RxByte touches RXQ and the time alone, and time does not go back. -/
theorem rxByte_frame (s : State) : ∃ q n, s.now ≤ n ∧ (rxByte s).2 = (s.setRxq q).setNow n := by
  obtain ⟨-, h⟩ | ⟨-, -, h⟩ | ⟨b, q, -, -, -, h⟩ | ⟨-, hd, -, -, h⟩ | ⟨-, -, -, -, h⟩ := rxByte_cases s <;> rw [h]
  · exact ⟨s.link.rxq, s.now + s.lapse, Nat.le_add_right _ _, rfl⟩
  · exact ⟨s.link.rxq, s.now + s.lapse, Nat.le_add_right _ _, rfl⟩
  · exact ⟨q, s.now + 1 + s.lapse, by omega, rfl⟩
  · exact ⟨s.link.rxq, s.txn.deadline + s.lapse, by omega, rfl⟩
  · exact ⟨s.link.rxq, s.now, le_rfl, rfl⟩

/-- Everything RXBYTE can do: it answers, or it waits and stays presented. -/
theorem execRxbyte_cases {s t : State} (h : execRxbyte s = .next t) :
    (∃ a, (rxByte s).1 = some a ∧ t = (rxByte s).2.answerWith (.received a)) ∨
    ((rxByte s).1 = none ∧ t = s.setHostq (.op [13] :: s.hostq)) := by
  unfold execRxbyte at h
  cases hr : (rxByte s).1 with
  | some a => rw [hr] at h; cases h; exact .inl ⟨a, rfl, rfl⟩
  | none => rw [hr] at h; cases h; exact .inr ⟨rfl, rfl⟩

/-- A byte is answered only from the head of a queue that is read in time. -/
theorem rxByte_eq_byte {s : State} {b : Byte} (h : (rxByte s).1 = some (.byte b)) :
    ∃ q, s.link.broken = false ∧ s.now < s.txn.deadline ∧ s.link.rxq = b :: q ∧
      (rxByte s).2 = (s.setRxq q).setNow (s.now + 1 + s.lapse) := by
  obtain ⟨-, h'⟩ | ⟨-, -, h'⟩ | ⟨b', q, h1, h2, h3, h'⟩ | ⟨-, -, -, -, h'⟩ | ⟨-, -, -, -, h'⟩ := rxByte_cases s <;>
    rw [h'] at h <;> try cases h
  exact ⟨q, h1, h2, h3, by rw [h']⟩

/-- TxWrite appends a leading part of the bytes to TX and lets time pass. -/
theorem txWrite_frame (f : List Byte) (s : State) :
    ∃ n, (txWrite f s).2 = linger (s.setLink { s.link with tx := s.link.tx ++ f.take n }) := by
  unfold txWrite
  split
  · exact ⟨f.length, by simp⟩
  · rename_i n _; exact ⟨n, rfl⟩
  · rename_i k _; exact ⟨k, rfl⟩

/-- RxFlush changes RXQ and the time alone; `ok` leaves RXQ empty. -/
theorem rxFlush_frame (s : State) :
    ∃ q, (rxFlush s).2 = linger (s.setRxq q) ∧ ((rxFlush s).1 = true → q = []) := by
  unfold rxFlush
  split
  · exact ⟨[], rfl, fun _ => rfl⟩
  · exact ⟨_, rfl, fun h => nomatch h⟩

/-! ### Failure capture -/

/-- Taking a failure writes what 60_exceptions.md R290 says and nothing else. -/
theorem takeFailure_taken (f : FailRec) (s : State) :
    FailureTaken f (failureTarget f.kind s.txn.attRem) s (takeFailure f s) := by
  unfold takeFailure enter
  split <;> rename_i ht <;>
    exact
      { kind := rfl, attempt := rfl, step := rfl
        expect := fun e h => by simp [recordFailure, h]
        got := fun e h => by simp [recordFailure, h]
        status := fun e h => by simp [recordFailure, h]
        payload := ⟨rfl, rfl⟩, decode := rfl, txn := rfl
        kept := ⟨rfl, rfl, rfl, rfl, rfl, rfl, rfl, rfl⟩
        events := by simp [recordFailure, ht, State.emit, State.setTm, State.setRes, State.setDec, State.draw] }

/-- The decode registers keep what they hold; only DEC_STATE goes to D_OFF. -/
theorem takeFailure_dec (f : FailRec) (s : State) : (takeFailure f s).dec = { s.dec with decState := .off } := by
  unfold takeFailure enter; split <;> rfl

theorem takeFailure_draws (f : FailRec) (s : State) : (takeFailure f s).draws = s.draws + 3 := by
  unfold takeFailure enter; split <;> rfl

theorem failureTarget_transient {k : Kind} (h : k.isTransient = true) (a : Byte) :
    failureTarget k a = if a = 0 then .protocolError else .backoff := by
  cases k <;> simp_all [Kind.isTransient, failureTarget]

/-- Success writes the result registers, TM_STATE and the events (43_transaction.md R208). -/
theorem takeFrame_eq (f : Frame) (s : State) :
    takeFrame f s =
      { s with
        txn := { s.txn with tmState := .completed }
        res := { s.res with
          kind := .none
          status := 0x00
          len := lengthByte f.payload
          pay := f.payload
          attempt := s.txn.attempt
          step := .off }
        events := s.events ++
          [.frameReceived s.req.cmd s.txn.attempt (lengthByte f.payload) f.payload, .done s.req.cmd .completed] } := by
  simp [takeFrame, enter, isTerminal, State.emit, State.setTm, State.setRes]

/-! ### One answer of a decode -/

theorem receiveAnswer_none {a : RxAnswer} {s : State} {d : DecRegs}
    (h : applyAnswer s.txn.expAddr s.txn.expCmd a s.dec = (d, none)) : receiveAnswer a s = s.setDec d := by
  simp [receiveAnswer, settle, h]

theorem receiveAnswer_some {a : RxAnswer} {s : State} {d : DecRegs} {r : DecResult}
    (h : applyAnswer s.txn.expAddr s.txn.expCmd a s.dec = (d, some r)) :
    receiveAnswer a s = conclude r (s.setDec d) := by
  simp [receiveAnswer, settle, h]

@[simp] theorem receive_some (a : RxAnswer) (s : State) : receive (some a) s = receiveAnswer a s := rfl

@[simp] theorem receive_none (s : State) : receive none s = s := rfl

/-- DECODE on a byte that is there to be read. -/
theorem exec_decode_byte {s : State} {b : Byte} {q : List Byte} (h : ReadsByte s b q) (hd : s.dec.decState ≠ .off) :
    exec .decode s = .next (receiveAnswer (.byte b) (afterRead s q (s.now + 1 + s.lapse))) := by
  show decodeStep s = _
  simp only [decodeStep, h.await, hd, if_false, ne_eq, not_true_eq_false, rxByte_byte h.sound h.inTime h.queue]
  rfl

/-- DECODE in AWAIT, whatever RxByte answers. -/
theorem decodeStep_await {s : State} (h : s.txn.tmState = .await) (hd : s.dec.decState ≠ .off) :
    decodeStep s = .next (receive (rxByte s).1 (rxByte s).2) := by
  simp [decodeStep, h, hd]

/-- A row of the wire while a decode runs. -/
theorem wireByte_decoding {s : State} (h : s.txn.tmState = .await) (hd : s.dec.decState ≠ .off) (b : Byte) :
    wireByte b s = receiveAnswer (.byte b) s := by
  simp [wireByte, State.decoding, h, hd]

theorem wireByte_waits {s : State} (h : s.txn.tmState ≠ .await ∨ s.dec.decState = .off) (b : Byte) :
    wireByte b s = s.setRxq (s.link.rxq ++ [b]) := by
  have : s.decoding = false := by rcases h with h | h <;> simp [State.decoding, h]
  simp [wireByte, this]

theorem wireEscape_waits {s : State} (h : s.txn.tmState ≠ .await ∨ s.dec.decState = .off) (c : Byte) :
    wireEscape c s = s.setRxq (s.link.rxq ++ [Config.ESC, c]) := by
  have : s.decoding = false := by rcases h with h | h <;> simp [State.decoding, h]
  simp [wireEscape, this]

/-! ### The host port -/

theorem executeOp_cases (c : Byte) (p : List Byte) (s : State) :
    (∃ r, executeRefusal c p s = some r ∧ executeOp c p s = refuse (.execute c p) r s) ∨
    (executeRefusal c p s = none ∧ executeOp c p s = acceptExecute c p s) := by
  unfold executeOp
  cases h : executeRefusal c p s with
  | some r => exact .inl ⟨r, rfl, rfl⟩
  | none => exact .inr ⟨rfl, rfl⟩

theorem busy_iff (s : State) : s.busy = true ↔ s.txn.tmState ≠ .idle := by simp [State.busy]

/-- Everything the acceptance checks of EXECUTE can answer, and when (43_transaction.md R203). -/
theorem executeRefusal_cases (c : Byte) (p : List Byte) (s : State) :
    (executeRefusal c p s = some .busy ∧ s.txn.tmState ≠ .idle) ∨
    (executeRefusal c p s = some .illegalCommand ∧ s.txn.tmState = .idle ∧ isCommand c = false) ∨
    (executeRefusal c p s = some .payloadTooLong ∧ s.txn.tmState = .idle ∧ isCommand c = true ∧ 255 < p.length) ∨
    (executeRefusal c p s = some .badConfig ∧ s.txn.tmState = .idle ∧ isCommand c = true ∧ p.length ≤ 255 ∧
      (s.cfg.retries = 0 ∨ s.cfg.timeout = 0)) ∨
    (executeRefusal c p s = none ∧ s.txn.tmState = .idle ∧ isCommand c = true ∧ p.length ≤ 255 ∧ s.cfg.retries ≠ 0 ∧
      s.cfg.timeout ≠ 0) := by
  unfold executeRefusal State.busy Config.MAX_PAYLOAD
  by_cases h1 : s.txn.tmState = .idle
  · cases h2 : isCommand c
    · simp [h1]
    · by_cases h3 : p.length ≤ 255
      · by_cases h4 : s.cfg.retries = 0 ∨ s.cfg.timeout = 0
        · simp [h1, h3, Nat.not_lt.2 h3]; tauto
        · simp [h1, h3, Nat.not_lt.2 h3]; tauto
      · simp [h1, Nat.lt_of_not_le h3]
  · simp [h1]

end Sys2Proof.Machine
end

