-- ==== Sys2Proof/Laws/PerInstr.lean ====
section
/-! SUPPORT. What holds of every operation as syntax, one lemma per constructor: its record has the format of its row of
spec/opcode_table.json and begins with the row's match bytes, where the table gives any (30_encoding.md R106). -/

namespace Sys2Proof.Laws.TableMatch

open Sys2Proof

/-- The format column of the operation's row. -/
def rowFormat : Instr → Format
  | .startMeas _ => .req
  | .stopMeas _ => .req
  | .readMeas _ => .req
  | .autoclean _ => .req
  | .fanClean _ => .req
  | .devInfo _ => .req
  | .devReset _ => .req
  | .esc7E => .esc
  | .esc7D => .esc
  | .esc11 => .esc
  | .esc13 => .esc
  | .marker => .delim
  | .status00 => .status
  | .status01 => .status
  | .status02 => .status
  | .status03 => .status
  | .status04 => .status
  | .status28 => .status
  | .status43 => .status
  | .statusOther _ => .status
  | .stuff _ => .op
  | .unstuff _ => .op
  | .chkgen _ _ _ _ => .op
  | .chkverify _ _ _ _ _ => .op
  | .encode _ _ _ => .op
  | .decode => .op
  | .execute _ _ => .op
  | .consume => .op
  | .cfgwrite _ => .op
  | .reset => .op
  | .errlookup _ => .op
  | .ackdec _ => .op
  | .measdec _ _ => .op
  | .rxbyte => .op
  | .txwrite _ => .op
  | .rxflush => .op

/-- The match column of the operation's row, in wire order; empty where the table gives none. -/
def rowMatch : Instr → List Byte
  | .startMeas _ => [0x00]
  | .stopMeas _ => [0x01]
  | .readMeas _ => [0x03]
  | .autoclean _ => [0x80]
  | .fanClean _ => [0x56]
  | .devInfo _ => [0xD0]
  | .devReset _ => [0xD3]
  | .esc7E => [0x7D, 0x5E]
  | .esc7D => [0x7D, 0x5D]
  | .esc11 => [0x7D, 0x31]
  | .esc13 => [0x7D, 0x33]
  | .marker => [0x7E]
  | .status00 => [0x00]
  | .status01 => [0x01]
  | .status02 => [0x02]
  | .status03 => [0x03]
  | .status04 => [0x04]
  | .status28 => [0x28]
  | .status43 => [0x43]
  | .statusOther _ => []
  | .stuff _ => []
  | .unstuff _ => []
  | .chkgen _ _ _ _ => []
  | .chkverify _ _ _ _ _ => []
  | .encode _ _ _ => []
  | .decode => []
  | .execute _ _ => []
  | .consume => []
  | .cfgwrite _ => []
  | .reset => []
  | .errlookup _ => []
  | .ackdec _ => []
  | .measdec _ _ => []
  | .rxbyte => []
  | .txwrite _ => []
  | .rxflush => []

/-- The record of the operation agrees with its row of the table. -/
def Statement (i : Instr) : Prop :=
  (encode i).1 = rowFormat i ∧ (encode i).2.take (rowMatch i).length = rowMatch i

theorem startMeas (p : List Byte) : Statement (.startMeas p) := ⟨rfl, rfl⟩
theorem stopMeas (p : List Byte) : Statement (.stopMeas p) := ⟨rfl, rfl⟩
theorem readMeas (p : List Byte) : Statement (.readMeas p) := ⟨rfl, rfl⟩
theorem autoclean (p : List Byte) : Statement (.autoclean p) := ⟨rfl, rfl⟩
theorem fanClean (p : List Byte) : Statement (.fanClean p) := ⟨rfl, rfl⟩
theorem devInfo (p : List Byte) : Statement (.devInfo p) := ⟨rfl, rfl⟩
theorem devReset (p : List Byte) : Statement (.devReset p) := ⟨rfl, rfl⟩
theorem esc7E : Statement .esc7E := ⟨rfl, rfl⟩
theorem esc7D : Statement .esc7D := ⟨rfl, rfl⟩
theorem esc11 : Statement .esc11 := ⟨rfl, rfl⟩
theorem esc13 : Statement .esc13 := ⟨rfl, rfl⟩
theorem marker : Statement .marker := ⟨rfl, rfl⟩
theorem status00 : Statement .status00 := ⟨rfl, rfl⟩
theorem status01 : Statement .status01 := ⟨rfl, rfl⟩
theorem status02 : Statement .status02 := ⟨rfl, rfl⟩
theorem status03 : Statement .status03 := ⟨rfl, rfl⟩
theorem status04 : Statement .status04 := ⟨rfl, rfl⟩
theorem status28 : Statement .status28 := ⟨rfl, rfl⟩
theorem status43 : Statement .status43 := ⟨rfl, rfl⟩
theorem statusOther (c : Byte) : Statement (.statusOther c) := ⟨rfl, rfl⟩
theorem stuff (p : List Byte) : Statement (.stuff p) := ⟨rfl, rfl⟩
theorem unstuff (p : List Byte) : Statement (.unstuff p) := ⟨rfl, rfl⟩
theorem chkgen (a c l : Byte) (p : List Byte) : Statement (.chkgen a c l p) := ⟨rfl, rfl⟩
theorem chkverify (a c l : Byte) (p : List Byte) (k : Byte) : Statement (.chkverify a c l p k) := ⟨rfl, rfl⟩
theorem encode (a c : Byte) (p : List Byte) : Statement (.encode a c p) := ⟨rfl, rfl⟩
theorem decode : Statement .decode := ⟨rfl, rfl⟩
theorem execute (c : Byte) (p : List Byte) : Statement (.execute c p) := ⟨rfl, rfl⟩
theorem consume : Statement .consume := ⟨rfl, rfl⟩
theorem cfgwrite (w : CfgWrite) : Statement (.cfgwrite w) := ⟨rfl, rfl⟩
theorem reset : Statement .reset := ⟨rfl, rfl⟩
theorem errlookup (c : Byte) : Statement (.errlookup c) := ⟨rfl, rfl⟩
theorem ackdec (p : List Byte) : Statement (.ackdec p) := ⟨rfl, rfl⟩
theorem measdec (p : List Byte) (n : Nat) : Statement (.measdec p n) := ⟨rfl, rfl⟩
theorem rxbyte : Statement .rxbyte := ⟨rfl, rfl⟩
theorem txwrite (p : List Byte) : Statement (.txwrite p) := ⟨rfl, rfl⟩
theorem rxflush : Statement .rxflush := ⟨rfl, rfl⟩

end Sys2Proof.Laws.TableMatch
end

