-- ==== Sys2Proof/Laws/Step.lean ====
section
/-! SUPPORT. Everything an operation and a step can do, as case lemmas. -/

namespace Sys2Proof.Machine

open Sys2Proof

/-- The move taken next changes the list of moves and nothing else. -/
theorem nextTurn_frame (s : State) : ∃ ts, (nextTurn s).2 = s.setTurns ts := by
  unfold nextTurn
  split
  · exact ⟨_, rfl⟩
  · exact ⟨s.turns, rfl⟩

/-- Everything an operation that goes on can do. -/
theorem exec_cases {i : Instr} {s t : State} (h : exec i s = .next t) :
    (∃ a, t = s.answerWith a) ∨
    (∃ c p, t = executeOp c p s) ∨
    (i = .consume ∧ consumeOp s = .next t) ∨
    (∃ w, i = .cfgwrite w ∧ execCfgwrite w s = .next t) ∨
    (i = .reset ∧ execReset s = .next t) ∨
    (((encode i).1 = .delim ∨ (encode i).1 = .status) ∧ ∃ b, t = wireByte b s) ∨
    ((encode i).1 = .esc ∧ ∃ c, isEscCode c = true ∧ t = wireEscape c s) ∨
    (i = .decode ∧ decodeStep s = .next t) ∨
    (i = .rxbyte ∧ ((∃ a, t = (rxByte s).2.answerWith a) ∨ t = s.setHostq (.op [13] :: s.hostq))) ∨
    (∃ x, i = .txwrite x ∧ t = (txWrite x s).2.answerWith (.written (txWrite x s).1)) ∨
    (i = .rxflush ∧ t = (rxFlush s).2.answerWith (.flushed (rxFlush s).1)) := by
  cases i
  case startMeas p => cases h; exact .inr (.inl ⟨_, _, rfl⟩)
  case stopMeas p => cases h; exact .inr (.inl ⟨_, _, rfl⟩)
  case readMeas p => cases h; exact .inr (.inl ⟨_, _, rfl⟩)
  case autoclean p => cases h; exact .inr (.inl ⟨_, _, rfl⟩)
  case fanClean p => cases h; exact .inr (.inl ⟨_, _, rfl⟩)
  case devInfo p => cases h; exact .inr (.inl ⟨_, _, rfl⟩)
  case devReset p => cases h; exact .inr (.inl ⟨_, _, rfl⟩)
  case execute c p => cases h; exact .inr (.inl ⟨_, _, rfl⟩)
  case esc7E => cases h; exact .inr (.inr (.inr (.inr (.inr (.inr (.inl ⟨rfl, _, by decide, rfl⟩))))))
  case esc7D => cases h; exact .inr (.inr (.inr (.inr (.inr (.inr (.inl ⟨rfl, _, by decide, rfl⟩))))))
  case esc11 => cases h; exact .inr (.inr (.inr (.inr (.inr (.inr (.inl ⟨rfl, _, by decide, rfl⟩))))))
  case esc13 => cases h; exact .inr (.inr (.inr (.inr (.inr (.inr (.inl ⟨rfl, _, by decide, rfl⟩))))))
  case marker => cases h; exact .inr (.inr (.inr (.inr (.inr (.inl ⟨.inl rfl, _, rfl⟩)))))
  case status00 => cases h; exact .inr (.inr (.inr (.inr (.inr (.inl ⟨.inr rfl, _, rfl⟩)))))
  case status01 => cases h; exact .inr (.inr (.inr (.inr (.inr (.inl ⟨.inr rfl, _, rfl⟩)))))
  case status02 => cases h; exact .inr (.inr (.inr (.inr (.inr (.inl ⟨.inr rfl, _, rfl⟩)))))
  case status03 => cases h; exact .inr (.inr (.inr (.inr (.inr (.inl ⟨.inr rfl, _, rfl⟩)))))
  case status04 => cases h; exact .inr (.inr (.inr (.inr (.inr (.inl ⟨.inr rfl, _, rfl⟩)))))
  case status28 => cases h; exact .inr (.inr (.inr (.inr (.inr (.inl ⟨.inr rfl, _, rfl⟩)))))
  case status43 => cases h; exact .inr (.inr (.inr (.inr (.inr (.inl ⟨.inr rfl, _, rfl⟩)))))
  case statusOther code => cases h; exact .inr (.inr (.inr (.inr (.inr (.inl ⟨.inr rfl, _, rfl⟩)))))
  case stuff x => cases h; exact .inl ⟨_, rfl⟩
  case unstuff x =>
    change execUnstuff x s = _ at h
    unfold execUnstuff at h
    split at h <;> cases h <;> exact .inl ⟨_, rfl⟩
  case chkgen a c l p => cases h; exact .inl ⟨_, rfl⟩
  case chkverify a c l p k =>
    change execChkverify a c l p k s = _ at h
    unfold execChkverify at h
    split at h <;> cases h <;> exact .inl ⟨_, rfl⟩
  case encode a c p =>
    change execEncode a c p s = _ at h
    unfold execEncode at h
    split at h <;> cases h <;> exact .inl ⟨_, rfl⟩
  case decode => exact .inr (.inr (.inr (.inr (.inr (.inr (.inr (.inl ⟨rfl, h⟩)))))))
  case consume => exact .inr (.inr (.inl ⟨rfl, h⟩))
  case cfgwrite w => exact .inr (.inr (.inr (.inl ⟨w, rfl, h⟩)))
  case reset => exact .inr (.inr (.inr (.inr (.inl ⟨rfl, h⟩))))
  case errlookup code => cases h; exact .inl ⟨_, rfl⟩
  case ackdec p => cases h; exact .inl ⟨_, rfl⟩
  case measdec p ts =>
    change execMeasdec p ts s = _ at h
    unfold execMeasdec at h
    split at h <;> cases h <;> exact .inl ⟨_, rfl⟩
  case rxbyte =>
    refine .inr (.inr (.inr (.inr (.inr (.inr (.inr (.inr (.inl ⟨rfl, ?_⟩))))))))
    obtain ⟨a, -, rfl⟩ | ⟨-, rfl⟩ := execRxbyte_cases h
    · exact .inl ⟨_, rfl⟩
    · exact .inr rfl
  case txwrite x => cases h; exact .inr (.inr (.inr (.inr (.inr (.inr (.inr (.inr (.inr (.inl ⟨x, rfl, rfl⟩)))))))))
  case rxflush => cases h; exact .inr (.inr (.inr (.inr (.inr (.inr (.inr (.inr (.inr (.inr ⟨rfl, rfl⟩)))))))))

/-- Everything a step that goes on can do, move by move. -/
theorem step_cases {s t : State} (h : step s = .next t) :
    ∃ ts, let u := s.setTurns ts
      ((nextTurn s).1 = .host ∧ s.hostq = [] ∧ t = u) ∨
      ((nextTurn s).1 = .host ∧ ∃ r rest i, s.hostq = r :: rest ∧ hostInstr r = .ok i ∧
        ((i ≠ .decode ∧ exec i (u.setHostq rest) = .next t) ∨ (i = .decode ∧ t = u.setHostq rest))) ∨
      ((nextTurn s).1 = .engine ∧ engineStep u = .next t) ∨
      (∃ bs, (nextTurn s).1 = .device bs ∧ t = u.setRxq (s.link.rxq ++ bs)) ∨
      (∃ f w b, (nextTurn s).1 = .transport f w b ∧
        t = u.setLink { s.link with flushAnswer := f, writeAnswer := w, broken := b }) ∨
      (∃ n l, (nextTurn s).1 = .clock n l ∧ t = (u.setNow (s.now + n)).setLapse l) := by
  obtain ⟨ts, hu⟩ := nextTurn_frame s
  refine ⟨ts, ?_⟩
  unfold step at h
  rw [hu] at h
  cases hm : (nextTurn s).1 with
  | host =>
    rw [hm] at h
    simp only [hostStep, State.setTurns_hostq] at h
    cases hq : s.hostq with
    | nil => rw [hq] at h; cases h; exact .inl ⟨rfl, rfl, rfl⟩
    | cons r rest =>
      rw [hq] at h
      simp only at h
      cases hi : hostInstr r with
      | error e => rw [hi] at h; cases h
      | ok i =>
        rw [hi] at h
        refine .inr (.inl ⟨rfl, r, rest, i, rfl, hi, ?_⟩)
        by_cases hd : i = .decode
        · subst hd; cases h; exact .inr ⟨rfl, rfl⟩
        · have hp : hostPerforms i = true := by simp [hostPerforms, hd]
          simp only [hp, if_true] at h
          exact .inl ⟨hd, h⟩
  | engine => rw [hm] at h; exact .inr (.inr (.inl ⟨rfl, h⟩))
  | device bs => rw [hm] at h; cases h; exact .inr (.inr (.inr (.inl ⟨bs, rfl, rfl⟩)))
  | transport f w b =>
    rw [hm] at h; cases h; exact .inr (.inr (.inr (.inr (.inl ⟨f, w, b, rfl, rfl⟩))))
  | clock n l => rw [hm] at h; cases h; exact .inr (.inr (.inr (.inr (.inr ⟨n, l, rfl, rfl⟩))))

/-! ### The step of each move -/

theorem nextTurn_cons {s : State} {m : Turn} {ts : List Turn} (h : s.turns = m :: ts) : nextTurn s = (m, s.setTurns ts) := by
  unfold nextTurn; rw [h]

theorem nextTurn_nil {s : State} (h : s.turns = []) : nextTurn s = (if s.active then .engine else .host, s) := by
  unfold nextTurn; rw [h]

theorem step_host {s : State} {ts : List Turn} (h : s.turns = .host :: ts) : step s = hostStep (s.setTurns ts) := by
  unfold step; rw [nextTurn_cons h]

theorem step_engine {s : State} {ts : List Turn} (h : s.turns = .engine :: ts) : step s = engineStep (s.setTurns ts) := by
  unfold step; rw [nextTurn_cons h]

theorem step_device {s : State} {ts : List Turn} {bs : List Byte} (h : s.turns = .device bs :: ts) :
    step s = .next ((s.setTurns ts).setRxq (s.link.rxq ++ bs)) := by
  unfold step; rw [nextTurn_cons h]; rfl

theorem step_transport {s : State} {ts : List Turn} {f : FlushAnswer} {w : WriteAnswer} {b : Bool}
    (h : s.turns = .transport f w b :: ts) :
    step s = .next ((s.setTurns ts).setLink { s.link with flushAnswer := f, writeAnswer := w, broken := b }) := by
  unfold step; rw [nextTurn_cons h]; rfl

theorem step_clock {s : State} {ts : List Turn} {n l : Nat} (h : s.turns = .clock n l :: ts) :
    step s = .next (((s.setTurns ts).setNow (s.now + n)).setLapse l) := by
  unfold step; rw [nextTurn_cons h]; rfl

/-- With no move listed the engine runs while a transaction is live. -/
theorem step_active {s : State} (h : s.turns = []) (ha : s.active = true) : step s = engineStep s := by
  unfold step; rw [nextTurn_nil h, if_pos ha]

theorem step_inactive {s : State} (h : s.turns = []) (ha : s.active = false) : step s = hostStep s := by
  unfold step; rw [nextTurn_nil h, ha]; rfl

/-! ### Runs -/

/-- The equation of Host.Core.run. -/
theorem run_succ (M : Host.Core) (k : Nat) (s : M.State) :
    M.run (k + 1) s =
      match M.step s with
      | .next t => M.run k t
      | .fault r => .fault r
      | .refused r => .refused r := rfl

theorem run_succ_of_next (M : Host.Core) {s t : M.State} (h : M.step s = .next t) (k : Nat) :
    M.run (k + 1) s = M.run k t := by
  rw [run_succ, h]

theorem run_next {s s' : State} (h : step s = .next s') (k : Nat) :
    Host.Core.run core (k + 1) s = Host.Core.run core k s' :=
  run_succ_of_next core h k

theorem run_succ_next_of (M : Host.Core) {s t : M.State} {k : Nat} (h : M.run (k + 1) s = .next t) :
    ∃ s', M.step s = .next s' ∧ M.run k s' = .next t := by
  rw [run_succ] at h
  cases hs : M.step s with
  | next s' => rw [hs] at h; exact ⟨s', rfl, h⟩
  | fault f => rw [hs] at h; cases h
  | refused f => rw [hs] at h; cases h

/-- A run that goes on is a step that goes on, then a shorter run. -/
theorem run_succ_next {s t : State} {k : Nat} (h : Host.Core.run core (k + 1) s = .next t) :
    ∃ s', step s = .next s' ∧ Host.Core.run core k s' = .next t :=
  run_succ_next_of core h

/-- A run is a run of its first steps followed by a run of the others. -/
theorem run_add {s t u : State} {j : Nat} (h : Host.Core.run core j s = .next t) {k : Nat}
    (g : Host.Core.run core k t = .next u) : Host.Core.run core (j + k) s = .next u := by
  induction j generalizing s with
  | zero => cases h; simpa using g
  | succ j ih =>
    obtain ⟨s', hs, hr⟩ := run_succ_next h
    rw [Nat.add_right_comm, run_next hs]
    exact ih hr

end Sys2Proof.Machine
end

