-- ==== Sys2Proof/Tests/Slice0.lean ====
section
/-! SUPPORT. The author's own tests: what the well-formedness check refuses, what the decoder reads from words written out
from 30_encoding.md, one step of each operation against 95_test_vectors.md, and for each obligation with hypotheses a state
and operands that meet them all. -/

namespace Sys2Proof.Tests

open Sys2Proof Sys2Proof.Machine

/-! ### Helpers -/

/-- The outcome is a next state with the property. -/
def after (o : Host.Outcome State Fault Refusal) (p : State → Bool) : Bool :=
  match o with
  | .next t => p t
  | .fault _ => false
  | .refused _ => false

/-- After reset and `CFG CFG_TIMEOUT = 1000`. -/
def ready : State := { State.reset with cfg := { CfgRegs.reset with timeout := 1000 } }

/-- A READ_MEAS transaction in its first attempt of three. -/
def live (tm : TmState) : State :=
  { ready with
    req := { cmd := 0x03, txLen := 0, txPay := [] }
    txn := { tmState := tm, attRem := 2, attempt := 1, deadline := 1000, expAddr := 0x00, expCmd := 0x03 } }

/-- The decode of that attempt, at a decode state, with a status byte read and bytes waiting. -/
def awaiting (st : DecState) (status : Byte) (q : List Byte) : State :=
  { live .await with
    dec := { decState := st, rxAddr := 0x00, rxCmd := 0x03, rxStatus := status, rxBuf := [], rxCnt := 0, escPend := false,
             malformed := false }
    link := { State.reset.link with rxq := q } }

/-- The same in a region that has unstuffed to `buf` so far. -/
def inBody (buf : List Byte) (pend : Bool) (q : List Byte) : State :=
  { awaiting .body 0x00 q with
    dec := { (awaiting .body 0x00 q).dec with rxBuf := buf, rxCnt := buf.length, escPend := pend } }

/-- A transaction over, with a recorded outcome. -/
def finished (tm : TmState) (r : ResRegs) : State := { live tm with res := r }

/-- The result registers of a recorded outcome at attempt 1. -/
def recorded (k : Kind) (status : Byte) (st : DecState) (e : Byte) (g : Got) (pay : List Byte) : ResRegs :=
  { kind := k, status := status, len := BitVec.ofNat 8 pay.length, pay := pay, attempt := 1, step := st, expect := e, got := g }

/-- The payload of vector V-S6: 1.0, 2.0, 3.0, 4.0, five times 0.0, 5.0. -/
def vS6 : List Byte :=
  [0x3F, 0x80, 0, 0, 0x40, 0, 0, 0, 0x40, 0x40, 0, 0, 0x40, 0x80, 0, 0] ++ List.replicate 20 0 ++ [0x40, 0xA0, 0, 0]

/-- A payload of `n` zero bytes. -/
def zeros (n : Nat) : List Byte := List.replicate n 0

theorem zeros_length (n : Nat) : (zeros n).length = n := List.length_replicate

theorem fits_zeros (n : Nat) : payloadFits (zeros n) = decide (n ≤ 255) := by
  simp [payloadFits, zeros_length, Config.MAX_PAYLOAD]

/-! ### Well-formedness: each check refuses an ill-formed term -/

theorem test_wf_startMeas : Instr.wf (.startMeas (zeros 256)) = false := by
  simp [Instr.wf, fits_zeros]
theorem test_wf_stopMeas : Instr.wf (.stopMeas (zeros 256)) = false := by
  simp [Instr.wf, fits_zeros]
theorem test_wf_readMeas : Instr.wf (.readMeas (zeros 256)) = false := by
  simp [Instr.wf, fits_zeros]
theorem test_wf_autoclean : Instr.wf (.autoclean (zeros 256)) = false := by
  simp [Instr.wf, fits_zeros]
theorem test_wf_fanClean : Instr.wf (.fanClean (zeros 256)) = false := by
  simp [Instr.wf, fits_zeros]
theorem test_wf_devInfo : Instr.wf (.devInfo (zeros 256)) = false := by
  simp [Instr.wf, fits_zeros]
theorem test_wf_devReset : Instr.wf (.devReset (zeros 256)) = false := by
  simp [Instr.wf, fits_zeros]
theorem test_wf_statusOther :
    ∀ code ∈ [(0x00 : Byte), 0x01, 0x02, 0x03, 0x04, 0x28, 0x43], Instr.wf (.statusOther code) = false := by decide
theorem test_wf_chkgen : Instr.wf (.chkgen 0 0 0 (zeros 256)) = false := by
  simp [Instr.wf, fits_zeros]
theorem test_wf_chkverify : Instr.wf (.chkverify 0 0 0 (zeros 256) 0) = false := by
  simp [Instr.wf, fits_zeros]
theorem test_wf_encode : Instr.wf (.encode 0 0 (zeros 256)) = false := by
  simp [Instr.wf, fits_zeros]
theorem test_wf_ackdec : Instr.wf (.ackdec (zeros 256)) = false := by
  simp [Instr.wf, fits_zeros]
theorem test_wf_measdec : Instr.wf (.measdec (zeros 256) 0) = false := by
  simp [Instr.wf, fits_zeros]
theorem test_wf_longest : Instr.wf (.readMeas (zeros 255)) = true := by
  simp [Instr.wf, fits_zeros]

/-! ### Decoding: words written out from 30_encoding.md R93 to R96 and the opcode table; the OP records from log 2 -/

theorem test_decode_commands :
    decode .req [0x00, 0x02, 0x01, 0x03] = .ok (.startMeas [0x01, 0x03]) ∧
    decode .req [0x01, 0x00] = .ok (.stopMeas []) ∧ decode .req [0x03, 0x00] = .ok (.readMeas []) ∧
    decode .req [0x80, 0x01, 0x6D] = .ok (.autoclean [0x6D]) ∧ decode .req [0x56, 0x00] = .ok (.fanClean []) ∧
    decode .req [0xD0, 0x01, 0x01] = .ok (.devInfo [0x01]) ∧ decode .req [0xD3, 0x00] = .ok (.devReset []) := by decide

theorem test_decode_pairs :
    decode .esc [0x7D, 0x5E] = .ok .esc7E ∧ decode .esc [0x7D, 0x5D] = .ok .esc7D ∧
    decode .esc [0x7D, 0x31] = .ok .esc11 ∧ decode .esc [0x7D, 0x33] = .ok .esc13 ∧
    decode .delim [0x7E] = .ok .marker := by decide

theorem test_decode_status :
    decode .status [0x00] = .ok .status00 ∧ decode .status [0x01] = .ok .status01 ∧
    decode .status [0x02] = .ok .status02 ∧ decode .status [0x03] = .ok .status03 ∧
    decode .status [0x04] = .ok .status04 ∧ decode .status [0x28] = .ok .status28 ∧
    decode .status [0x43] = .ok .status43 ∧ decode .status [0x7D] = .ok (.statusOther 0x7D) := by decide

theorem test_decode_units :
    decode .op [0, 0x7E] = .ok (.stuff [0x7E]) ∧ decode .op [1, 0x7D] = .ok (.unstuff [0x7D]) ∧
    decode .op [2, 0x00, 0x80, 0x01, 0x6D] = .ok (.chkgen 0x00 0x80 0x01 [0x6D]) ∧
    decode .op [3, 0x00, 0x80, 0x01, 0x11, 0x6D] = .ok (.chkverify 0x00 0x80 0x01 [0x6D] 0x11) ∧
    decode .op [4, 0x00, 0x80, 0x6D] = .ok (.encode 0x00 0x80 [0x6D]) ∧ decode .op [5] = .ok .decode ∧
    decode .op [10, 0x02] = .ok (.errlookup 0x02) ∧ decode .op [11, 0x09] = .ok (.ackdec [0x09]) ∧
    decode .op [12, 0xE8, 0x07, 0x3F] = .ok (.measdec [0x3F] 1000) := by decide

theorem test_decode_ports :
    decode .op [6, 0x42, 0x01] = .ok (.execute 0x42 [0x01]) ∧ decode .op [7] = .ok .consume ∧
    decode .op [8, 0, 5] = .ok (.cfgwrite (.retries 5)) ∧
    decode .op [8, 1, 0xE8, 0x07] = .ok (.cfgwrite (.timeout 1000)) ∧
    decode .op [8, 2, 100] = .ok (.cfgwrite (.backoff 100)) ∧ decode .op [8, 3, 20] = .ok (.cfgwrite (.settle 20)) ∧
    decode .op [8, 4, 40] = .ok (.cfgwrite (.minMeasLen 40)) ∧
    decode .op [8, 5, 6, 1] = .ok (.cfgwrite (.decsel 6 .meas)) ∧ decode .op [9] = .ok .reset ∧
    decode .op [13] = .ok .rxbyte ∧ decode .op [14, 0x7E, 0x7E] = .ok (.txwrite [0x7E, 0x7E]) ∧
    decode .op [15] = .ok .rxflush := by decide

theorem test_decode_rejects :
    decode .req [0x42, 0x00] = .error (.illegalCommand 0x42 []) ∧
    decode .req [0x03, 0x01] = .error (.lengthDisagrees 0x01 0) ∧
    decode .esc [0x7D, 0x7D] = .error (.illegalEscape 0x7D 0x7D) ∧
    decode .esc [0x7D, 0x20] = .error (.illegalEscape 0x7D 0x20) ∧ decode .delim [0x7D] = .error (.notMarker 0x7D) ∧
    decode .op [16] = .error (.unknownOperation 16) ∧ decode .op [8, 6, 0] = .error (.unknownRegister 6) ∧
    decode .op [8, 5, 7, 0] = .error (.unknownRegister 7) ∧ decode .op [8, 1, 0x80, 0x00] = .error .badNumber := by decide

theorem test_numbers :
    TmState.code .transportError = 8 ∧ DecState.code .body = 6 ∧ Kind.code .transport = 8 ∧ Kind.code .address = 5 := by
  decide

/-! ### One step of each operation -/

-- R204, V-E11 for the seven command bytes of R95
theorem test_startMeas :
    after (exec (.startMeas []) ready) (fun t => t.req.cmd = 0x00 && t.txn.expCmd = 0x00 && t.txn.tmState = .start) = true := by
  decide
theorem test_stopMeas :
    after (exec (.stopMeas []) ready) (fun t => t.req.cmd = 0x01 && t.txn.expCmd = 0x01 && t.txn.attRem = 3) = true := by decide
theorem test_readMeas :
    after (exec (.readMeas []) ready)
      (fun t => t.req = { cmd := 0x03, txLen := 0, txPay := [] } && t.txn.expCmd = 0x03 && t.txn.attRem = 3 &&
        t.txn.attempt = 0 && t.txn.tmState = .start) = true := by decide
theorem test_autoclean :
    after (exec (.autoclean [0x00]) ready) (fun t => t.req = { cmd := 0x80, txLen := 1, txPay := [0x00] }) = true := by decide
theorem test_fanClean : after (exec (.fanClean []) ready) (fun t => t.req.cmd = 0x56 && t.txn.expCmd = 0x56) = true := by decide
theorem test_devInfo :
    after (exec (.devInfo [0x01]) ready) (fun t => t.req = { cmd := 0xD0, txLen := 1, txPay := [0x01] }) = true := by decide
theorem test_devReset :
    after (exec (.devReset []) ready) (fun t => t.req.cmd = 0xD3 && t.cfg.timeout = 1000 && t.txn.tmState = .start) = true := by
  decide

-- R137: the streaming trace of 95_test_vectors.md, and a pair whose introducer has been read
theorem test_esc7E : after (exec .esc7E (inBody [] false [])) (fun t => t.dec.rxBuf = [0x7E] && t.dec.rxCnt = 1) = true := by decide
theorem test_esc7D :
    after (exec .esc7D (inBody [0x02] true [])) (fun t => t.dec.rxBuf = [0x02, 0x7D] && t.dec.escPend = false) = true := by decide
theorem test_esc11 : after (exec .esc11 (inBody [0x02] false [])) (fun t => t.dec.rxBuf = [0x02, 0x11]) = true := by decide
theorem test_esc13 : after (exec .esc13 (inBody [0x02] false [])) (fun t => t.dec.rxBuf = [0x02, 0x13]) = true := by decide
-- V-D5: an escape pair in the address position decides at its introducer and leaves its code in RXQ
theorem test_esc7E_address :
    after (exec .esc7E (awaiting .addr 0 []))
      (fun t => t.res.kind = .address && t.res.got = 0x7D && t.link.rxq = [0x5E] && t.txn.tmState = .backoff) = true := by decide

-- V-D4 and V-D11
theorem test_marker_address :
    after (exec .marker (awaiting .addr 0 []))
      (fun t => t.res.kind = .address && t.res.expect = 0x00 && t.res.got = 0x7E && t.res.step = .addr) = true := by decide
theorem test_marker_empty_region :
    after (exec .marker (inBody [] false [])) (fun t => t.res.kind = .length && t.res.got = 0 && t.res.step = .body) = true := by
  decide

-- R168, V-D7, V-D9
theorem test_status00 : after (exec .status00 (awaiting .status 0x55 [])) (fun t => t.dec.rxStatus = 0 && t.dec.decState = .body) = true := by
  decide
theorem test_status01 : after (exec .status01 (awaiting .status 0 [])) (fun t => t.dec.rxStatus = 0x01 && t.dec.decState = .drain) = true := by
  decide
theorem test_status02 : after (exec .status02 (awaiting .status 0 [])) (fun t => t.dec.rxStatus = 0x02 && t.dec.decState = .drain) = true := by
  decide
theorem test_status03 : after (exec .status03 (awaiting .status 0 [])) (fun t => t.dec.rxStatus = 0x03 && t.dec.decState = .drain) = true := by
  decide
theorem test_status04 : after (exec .status04 (awaiting .status 0 [])) (fun t => t.dec.rxStatus = 0x04 && t.dec.decState = .drain) = true := by
  decide
theorem test_status28 : after (exec .status28 (awaiting .status 0 [])) (fun t => t.dec.rxStatus = 0x28 && t.dec.decState = .drain) = true := by
  decide
theorem test_status43 : after (exec .status43 (awaiting .status 0 [])) (fun t => t.dec.rxStatus = 0x43 && t.dec.decState = .drain) = true := by
  decide
theorem test_statusOther :
    after (exec (.statusOther 0x7D) (awaiting .status 0 [])) (fun t => t.dec.rxStatus = 0x7D && t.dec.decState = .drain) = true := by
  decide

-- V-S2, V-A4; V-A15, V-A11
theorem test_stuff :
    after (exec (.stuff [0x7E, 0x11, 0x7D]) ready) (fun t => t.answer = some (.bytes [0x7D, 0x5E, 0x7D, 0x31, 0x7D, 0x5D])) = true := by
  decide
theorem test_stuff_codes :
    after (exec (.stuff [0x5E, 0x5D, 0x31, 0x33, 0x20]) ready) (fun t => t.answer = some (.bytes [0x5E, 0x5D, 0x31, 0x33, 0x20])) = true := by
  decide
theorem test_unstuff :
    after (exec (.unstuff [0x01, 0x7D, 0x33, 0x02]) ready) (fun t => t.answer = some (.bytes [0x01, 0x13, 0x02])) = true := by decide
theorem test_unstuff_malformed :
    after (exec (.unstuff [0x7D, 0x7D, 0x5D]) ready) (fun t => t.answer = some .malformedEscape) = true := by decide

-- V-B8, V-B9; the verification of group B
theorem test_chkgen : after (exec (.chkgen 0x00 0x80 0x01 [0x6D]) ready) (fun t => t.answer = some (.checksum 0x11)) = true := by decide
theorem test_chkgen_wraps : after (exec (.chkgen 0x00 0x00 0x01 [0xFF]) ready) (fun t => t.answer = some (.checksum 0xFF)) = true := by
  decide
theorem test_chkverify : after (exec (.chkverify 0x00 0x03 0x00 [] 0xFC) ready) (fun t => t.answer = some .verified) = true := by decide
theorem test_chkverify_fails :
    after (exec (.chkverify 0x00 0x03 0x00 [] 0xFD) ready) (fun t => t.answer = some (.checksumMismatch 0xFC 0xFD)) = true := by decide

-- V-C11, V-C13
theorem test_encode :
    after (exec (.encode 0x00 0x80 [0x6D]) ready)
      (fun t => t.answer = some (.bytes [0x7E, 0x00, 0x80, 0x01, 0x6D, 0x7D, 0x31, 0x7E])) = true := by decide
theorem test_encode_length_stuffed :
    after (exec (.encode 0x00 0x80 [0, 1, 2, 3, 4, 5, 6, 7, 8, 9, 10, 11, 12, 13, 14, 15, 16]) ready)
      (fun t => t.answer = some (.bytes ([0x7E, 0x00, 0x80, 0x7D, 0x31] ++
        [0, 1, 2, 3, 4, 5, 6, 7, 8, 9, 10, 11, 12, 13, 14, 15, 16] ++ [0xE6, 0x7E]))) = true := by decide

-- V-D6; V-D16
theorem test_decode_command :
    after (exec .decode (awaiting .cmd 0 [0x00]))
      (fun t => t.res.kind = .command && t.res.expect = 0x03 && t.res.got = 0x00 && t.now = 1) = true := by decide
theorem test_decode_checksum :
    after (exec .decode (inBody [0x00, 0xFD] false [0x7E, 0x55]))
      (fun t => t.res.kind = .checksum && t.res.expect = 0xFC && t.res.got = 0xFD && t.link.rxq = [0x55]) = true := by decide

-- V-E5, V-E10; V-E9, P3
theorem test_execute_order :
    after (exec (.execute 0x42 (zeros 256)) State.reset) (fun t => t.answer = some (.refused .illegalCommand)) = true := by
  decide
theorem test_execute_busy :
    after (exec (.execute 0x01 []) (finished .completed (recorded .none 0 .off 0 0 []))) (fun t => t.answer = some (.refused .busy)) = true := by
  decide
theorem test_consume_idle : after (exec .consume ready) (fun t => t.answer = some (.refused .notDone)) = true := by decide
theorem test_consume_device :
    after (exec .consume (finished .deviceError (recorded .device 0x02 .drain 0 0 [])))
      (fun t => t.txn.tmState = .idle && t.answer = some (.outcome (.failed (.deviceError 0x02 "Unknown command")
        { cmd := 0x03, attempt := 1, step := .drain, expect := none, got := none, status := some 0x02 }))) = true := by decide

-- V-E7 and the example of R23
theorem test_cfgwrite_busy : after (exec (.cfgwrite (.timeout 5)) (awaiting .hunt 0 [])) (fun t => t.cfg.timeout = 1000) = true := by decide
theorem test_cfgwrite : after (exec (.cfgwrite (.timeout 1000)) State.reset) (fun t => t.cfg.timeout = 1000 && t.cfg.retries = 3) = true := by
  decide

-- V-H2
theorem test_reset :
    after (exec .reset (awaiting .body 0 [0x55]))
      (fun t => t.txn.tmState = .idle && t.dec.decState = .off && t.link.rxq = [0x55] && t.cfg.timeout = 0 && t.cfg.retries = 3) = true := by
  decide

-- V-F4, V-F5; V-G2; V-S6, V-G8
theorem test_errlookup : after (exec (.errlookup 0x05) ready) (fun t => t.answer = some (.description "unknown error 0x05")) = true := by decide
theorem test_errlookup_upper : after (exec (.errlookup 0xFF) ready) (fun t => t.answer = some (.description "unknown error 0xFF")) = true := by
  decide
theorem test_ackdec : after (exec (.ackdec [0x00, 0x09, 0x3A, 0x80]) ready) (fun t => t.answer = some (.ack [0x00, 0x09, 0x3A, 0x80])) = true := by
  decide
theorem test_measdec :
    after (exec (.measdec vS6 7) ready)
      (fun t => t.answer = some (.reading
        { timestamp := 7, pm1 := 0x3F800000, pm25 := 0x40000000, pm4 := 0x40400000, pm10 := 0x40800000, nc0 := 0, nc1 := 0,
          nc2 := 0, nc3 := 0, nc4 := 0, tps := 0x40A00000 })) = true := by decide
theorem test_measdec_minimum :
    after (exec (.measdec vS6 7) { ready with cfg := { ready.cfg with minMeasLen := 44 } })
      (fun t => t.answer = some (.truncatedPayload 40)) = true := by decide

-- R66, D4; R67 as in V-E13; R68
theorem test_rxbyte_deadline :
    after (exec .rxbyte { awaiting .hunt 0 [0x7E] with now := 1000 })
      (fun t => t.answer = some (.received .timeout) && t.link.rxq = [0x7E]) = true := by decide
theorem test_rxbyte :
    after (exec .rxbyte { awaiting .hunt 0 [0x7E, 0x01] with now := 999 })
      (fun t => t.answer = some (.received (.byte 0x7E)) && t.link.rxq = [0x01] && t.now = 1000) = true := by decide
theorem test_txwrite :
    after (exec (.txwrite [1, 2, 3, 4, 5, 6]) { ready with link := { ready.link with writeAnswer := .upTo 4 } })
      (fun t => t.answer = some (.written (.count 4)) && t.link.tx = [1, 2, 3, 4]) = true := by decide
theorem test_rxflush :
    after (exec .rxflush (awaiting .hunt 0 [0xAA, 0x7E])) (fun t => t.link.rxq = [] && t.answer = some (.flushed true)) = true := by decide

-- V-C5 written by the step in START; V-E14; the example of R206
theorem test_start :
    after (engineStep { live .start with
        req := { cmd := 0x80, txLen := 1, txPay := [0x00] }
        txn := { (live .start).txn with attempt := 0, attRem := 3 } })
      (fun t => t.link.tx = [0x7E, 0x00, 0x80, 0x01, 0x00, 0x7D, 0x5E, 0x7E] && t.txn.attempt = 1 && t.txn.attRem = 2 &&
        t.txn.tmState = .sent) = true := by decide
theorem test_start_flush_fails :
    after (engineStep { live .start with link := { ready.link with flushAnswer := .error 0 } })
      (fun t => t.txn.tmState = .transportError && t.res.step = .off && t.link.tx = []) = true := by decide
theorem test_sent :
    after (engineStep { live .sent with now := 5000, cfg := { ready.cfg with settle := 20 } })
      (fun t => t.now = 5020 && t.txn.deadline = 6020 && t.dec.decState = .hunt) = true := by decide

-- V-D29, V-D31, V-D10 through R177
theorem test_decode_raw_reserved :
    (decodeAnswers 0x00 0x80 (startDecode 0)
      ([0x7E, 0x00, 0x80, 0x00, 0x04, 0x00, 0x7D, 0x5E, 0x11, 0x13, 0xD9, 0x7E].map .byte)).map (·.1) =
    some (.frame { address := 0x00, command := 0x80, status := 0x00, payload := [0x00, 0x7E, 0x11, 0x13] }) := by decide
theorem test_decode_two_frames :
    (decodeAnswers 0x00 0x00 (startDecode 0)
      ([0x7E, 0, 0, 0, 0x01, 0xAA, 0x54, 0x7E, 0x7E, 0, 0, 0, 0, 0xFF, 0x7E].map .byte)).map (·.2.length) = some 7 := by decide

-- a word of the table runs as the first operation after reset (log 6)
theorem test_fetch_word_runs :
    after (step (State.reset.withFetchWord 16 0x7D31)) (fun t => t.dec.rxBuf = [0x11]) = true ∧
    after (step (State.reset.withFetchWord 8 0x7E)) (fun t => t.dec.decState = .addr) = true ∧
    after (step (State.reset.withFetchWord 8 0x28)) (fun t => t.dec.rxStatus = 0x28) = true ∧
    after (step (State.reset.withFetchWord 8 0xD3)) (fun t => t.answer = some (.refused .badConfig)) = true := by decide

/-! ### Witnesses: for each obligation with hypotheses, values that meet them; one for each clause -/

theorem readsByte_awaiting (st : DecState) (status b : Byte) (q : List Byte) :
    ReadsByte (awaiting st status (b :: q)) b q := ⟨rfl, rfl, by show 0 < 1000; decide, rfl⟩

theorem readsByte_inBody (buf : List Byte) (pend : Bool) (b : Byte) (q : List Byte) :
    ReadsByte (inBody buf pend (b :: q)) b q := ⟨rfl, rfl, by show 0 < 1000; decide, rfl⟩

theorem witness_DecodeOfEncode :
    WellFormed (.statusOther 0xFF) ∧ WellFormed (.measdec [] 0) ∧ WellFormed (.encode 0x7E 0x7D (zeros 255)) ∧
      WellFormed (.cfgwrite (.decsel 6 .meas)) := by
  refine ⟨by decide, by decide, ?_, by decide⟩
  simp [WellFormed, Instr.wf, fits_zeros]

theorem witness_EncodeOfDecode :
    decode .req [0xD3, 0x00] = .ok (.devReset []) ∧ decode .esc [0x7D, 0x33] = .ok .esc13 ∧
    decode .status [0xFF] = .ok (.statusOther 0xFF) ∧ decode .op [8, 1, 0x00] = .ok (.cfgwrite (.timeout 0)) := by decide

/-- Decode registers cleared as at decode start. -/
def cleared : DecRegs := { DecRegs.reset with decState := .body, rxCmd := 0x03 }

theorem witness_StreamingUnstufferAgrees :
    (cleared.rxCnt = 0 ∧ cleared.rxBuf = [] ∧ cleared.escPend = false ∧ cleared.malformed = false) ∧
    unstuff [0x7D, 0x5E] = some [0x7E] ∧ unstuff [0x00, 0x7D] = none := by decide

theorem witness_UnstuffStuffRoundTrip :
    (unstuff [0x7D, 0x31] = some [0x11] ∧ [0x7D, 0x31] = stuff [0x11]) ∧ (unstuff [0x11] = some [0x11] ∧ stuff [0x11] ≠ [0x11]) := by
  decide

theorem witness_RegionValidationFormsAgree :
    cleared.rxCnt = 0 ∧ cleared.rxBuf = [] ∧ cleared.escPend = false ∧ cleared.malformed = false := by decide

theorem witness_ChecksumUnitAnswers :
    BitVec.ofNat 8 (255 - ((0x00 : Byte).toNat + (0x80 : Byte).toNat + (0x01 : Byte).toNat +
      (([0x6D] : List Byte).map BitVec.toNat).sum) % 256) = (0x11 : Byte) ∧ (0x11 : Byte) ≠ 0x12 := by decide

theorem witness_ChecksumSumForm :
    (0x03 : Byte) ≠ 0x04 ∧ ((([0x00] : List Byte) ++ (0x03 : Byte) :: [0x00, 0xFC]).map BitVec.toNat).sum % 256 = 255 := by
  decide

theorem witness_EncodeComposesFrame : (zeros 255).length ≤ 255 := by rw [zeros_length]

theorem witness_EncodedFrameVerifies : (zeros 255).length ≤ 255 ∧ (0x00 : Byte) = 0x00 ∧ isCommand 0xD3 = true := by
  rw [zeros_length]; decide

theorem witness_HuntFindsMarker :
    ReadsByte (awaiting .hunt 0 [0x7E]) 0x7E [] ∧ (awaiting .hunt 0 [0x7E]).dec.decState = .hunt :=
  ⟨readsByte_awaiting .hunt 0 _ _, rfl⟩

theorem witness_AddressByteChecked :
    (ReadsByte (awaiting .addr 0 [0x00]) 0x00 [] ∧ (awaiting .addr 0 [0x00]).dec.decState = .addr ∧
      (0x00 : Byte) = (awaiting .addr 0 [0x00]).txn.expAddr) ∧
    (ReadsByte (awaiting .addr 0 [0x7E]) 0x7E [] ∧ (awaiting .addr 0 [0x7E]).dec.decState = .addr ∧
      (0x7E : Byte) ≠ (awaiting .addr 0 [0x7E]).txn.expAddr) :=
  ⟨⟨readsByte_awaiting .addr 0 _ _, rfl, rfl⟩, ⟨readsByte_awaiting .addr 0 _ _, rfl, by decide⟩⟩

theorem witness_CommandByteChecked :
    (ReadsByte (awaiting .cmd 0 [0x03]) 0x03 [] ∧ (awaiting .cmd 0 [0x03]).dec.decState = .cmd ∧
      (0x03 : Byte) = (awaiting .cmd 0 [0x03]).txn.expCmd) ∧
    (ReadsByte (awaiting .cmd 0 [0x00]) 0x00 [] ∧ (awaiting .cmd 0 [0x00]).dec.decState = .cmd ∧
      (0x00 : Byte) ≠ (awaiting .cmd 0 [0x00]).txn.expCmd) :=
  ⟨⟨readsByte_awaiting .cmd 0 _ _, rfl, rfl⟩, ⟨readsByte_awaiting .cmd 0 _ _, rfl, by decide⟩⟩

theorem witness_StatusByteTestedForZero :
    ReadsByte (awaiting .status 0 [0x7E]) 0x7E [] ∧ (awaiting .status 0 [0x7E]).dec.decState = .status :=
  ⟨readsByte_awaiting .status 0 _ _, rfl⟩

theorem witness_DrainEndsInDeviceError :
    (ReadsByte (awaiting .drain 2 [0xFA]) 0xFA [] ∧ (awaiting .drain 2 [0xFA]).dec.decState = .drain ∧ (0xFA : Byte) ≠ 0x7E) ∧
    (ReadsByte (awaiting .drain 2 [0x7E]) 0x7E [] ∧ (awaiting .drain 2 [0x7E]).dec.decState = .drain) :=
  ⟨⟨readsByte_awaiting .drain 2 _ _, rfl, by decide⟩, ⟨readsByte_awaiting .drain 2 _ _, rfl⟩⟩

theorem witness_BodyByteUnstuffed :
    (ReadsByte (inBody [] true [0x5E]) 0x5E [] ∧ (inBody [] true [0x5E]).dec.escPend = true ∧
      ((0x5E : Byte), (0x7E : Byte)) ∈ [((0x5E : Byte), (0x7E : Byte)), (0x5D, 0x7D), (0x31, 0x11), (0x33, 0x13)]) ∧
    (ReadsByte (inBody [] true [0x7D]) 0x7D [] ∧ (0x7D : Byte) ≠ 0x7E ∧ (0x7D : Byte) ∉ [(0x5E : Byte), 0x5D, 0x31, 0x33]) ∧
    (ReadsByte (inBody [] false [0x7D]) 0x7D [] ∧ (inBody [] false [0x7D]).dec.escPend = false) ∧
    (ReadsByte (inBody [] false [0x11]) 0x11 [] ∧ (inBody [] false [0x11]).dec.decState = .body ∧ (0x11 : Byte) ≠ 0x7D) :=
  ⟨⟨readsByte_inBody [] true _ _, rfl, by decide⟩, ⟨readsByte_inBody [] true _ _, by decide, by decide⟩,
    ⟨readsByte_inBody [] false _ _, rfl⟩, ⟨readsByte_inBody [] false _ _, rfl, by decide⟩⟩

/-- The region `00 FC` of vector V-D13, and `00 FD` of V-D16. -/
theorem witness_ClosingMarkerDecides :
    (ReadsByte (inBody [0x00, 0xFC] false [0x7E]) 0x7E [] ∧ (inBody [0x00, 0xFC] false [0x7E]).dec.decState = .body ∧
      validateRegion (closeRegion (inBody [0x00, 0xFC] false [0x7E]).dec) =
        .frame { address := 0x00, command := 0x03, status := 0x00, payload := [] }) ∧
    (ReadsByte (inBody [0x00, 0xFD] false [0x7E]) 0x7E [] ∧
      validateRegion (closeRegion (inBody [0x00, 0xFD] false [0x7E]).dec) =
        .failed { kind := .checksum, step := .body, expect := some 0xFC, got := some 0xFD, status := none }) :=
  ⟨⟨readsByte_inBody _ _ _ _, rfl, by decide⟩, ⟨readsByte_inBody _ _ _ _, by decide⟩⟩

theorem witness_DeadlineEndsDecode :
    (∀ s ∈ [{ awaiting .drain 2 [0x7E] with now := 1000 }, awaiting .hunt 0 []],
      s.txn.tmState = .await ∧ s.dec.decState ≠ .off ∧ s.link.broken = false ∧
        (s.txn.deadline ≤ s.now ∨ (s.link.rxq = [] ∧ s.turns = []))) := by decide

/-- A transaction whose transport is broken. -/
def broken (s : State) : State := { s with link := { s.link with broken := true } }

theorem witness_BrokenTransportEndsDecode :
    (broken (awaiting .status 0 [])).txn.tmState = .await ∧ (broken (awaiting .status 0 [])).dec.decState ≠ .off ∧
      (broken (awaiting .status 0 [])).link.broken = true := by decide

/-- Vector V-D31: the second frame is left over. -/
theorem witness_ValidatedFrameGuarantees :
    decodeAnswers 0x00 0x00 (startDecode 0) ([0xFF, 0x7E, 0, 0, 0, 0x01, 0xAA, 0x54, 0x7E, 0x7E].map .byte) =
      some (.frame { address := 0x00, command := 0x00, status := 0x00, payload := [0xAA] }, [.byte 0x7E]) := by decide

theorem witness_WholeResponseDecodes : ([0xAA] : List Byte).length ≤ 255 ∧ (0x7E : Byte) ∉ ([0x01, 0xAA, 0x54] : List Byte) := by
  decide

/-- The region of vector V-D30 before and after its payload byte AA is changed to AB. -/
theorem witness_SingleByteCorruptionDetected :
    ([0xAA] : List Byte).length ≤ 255 ∧ (0xAA : Byte) ≠ 0xAB ∧ (0x7E : Byte) ∉ ([0x01] ++ 0xAA :: [0x54] : List Byte) ∧
    unstuff ([0x01] ++ 0xAA :: [0x54]) =
      some ([BitVec.ofNat 8 ([0xAA] : List Byte).length] ++ [0xAA] ++
        [checksum [0x00, 0x00, BitVec.ofNat 8 ([0xAA] : List Byte).length] [0xAA]]) := by decide

theorem witness_EscapePairStandsForReservedByte :
    (inBody [] true []).txn.tmState = .await ∧ (inBody [] true []).dec.decState = .body ∧
      (Instr.esc13, (0x13 : Byte)) ∈
        [(Instr.esc7E, (0x7E : Byte)), (.esc7D, 0x7D), (.esc11, 0x11), (.esc13, 0x13)] := by decide

theorem witness_MarkerRecognisedByValue :
    (∀ st ∈ [DecState.hunt, .addr, .status, .drain],
      (awaiting st 2 []).txn.tmState = .await ∧ (awaiting st 2 []).dec.decState = st) ∧
      (awaiting .addr 2 []).txn.expAddr ≠ 0x7E := by decide

theorem witness_StatusRowsRouteDecode :
    (awaiting .status 0 []).txn.tmState = .await ∧ (awaiting .status 0 []).dec.decState = .status ∧
      WellFormed (.statusOther 0x7E) ∧ (Instr.status43, (0x43 : Byte)) ∈
        [(Instr.status01, (0x01 : Byte)), (.status02, 0x02), (.status03, 0x03), (.status04, 0x04), (.status28, 0x28),
          (.status43, 0x43)] := by decide

theorem witness_WireBytesWaitOutsideDecode :
    (State.reset.txn.tmState ≠ .await ∨ State.reset.dec.decState = .off) ∧
    ((live .await).txn.tmState ≠ .await ∨ (live .await).dec.decState = .off) := by decide

theorem witness_WireOperationsFrame :
    (∃ t, exec .marker (awaiting .addr 0 []) = .next t) ∧ (∃ t, exec (.statusOther 0xFF) (awaiting .status 0 []) = .next t) ∧
      ∃ t, exec .decode (awaiting .hunt 0 [0x7E]) = .next t := ⟨⟨_, rfl⟩, ⟨_, rfl⟩, ⟨_, rfl⟩⟩

theorem witness_RxByteLaws :
    (broken ready).link.broken = true ∧
    (∀ s ∈ [{ awaiting .hunt 0 [0x7E] with now := 1000 }], s.link.broken = false ∧ s.txn.deadline ≤ s.now) ∧
    (∀ s ∈ [{ awaiting .hunt 0 [0x7E] with now := 999 }], s.link.broken = false ∧ s.now < s.txn.deadline ∧
      s.link.rxq = [0x7E]) ∧
    ((awaiting .hunt 0 []).link.rxq = [] ∧ (awaiting .hunt 0 []).turns = [] ∧
      (awaiting .hunt 0 []).now < (awaiting .hunt 0 []).txn.deadline) ∧
    (∀ s ∈ [{ awaiting .hunt 0 [] with turns := [.device [0x7E]] }], s.link.broken = false ∧ s.link.rxq = [] ∧
      s.turns ≠ [] ∧ s.now < s.txn.deadline) := by decide

/-- The machine with a transport that answers in given ways. -/
def answering (f : FlushAnswer) (w : WriteAnswer) (s : State) : State :=
  { s with link := { s.link with flushAnswer := f, writeAnswer := w } }

theorem witness_WriteAndFlushLaws :
    (answering .ok .all ready).link.writeAnswer = .all ∧ (answering .ok (.upTo 4) ready).link.writeAnswer = .upTo 4 ∧
    (answering .ok (.error 2) ready).link.writeAnswer = .error 2 ∧ (answering .ok .all ready).link.flushAnswer = .ok ∧
    (answering (.error 1) .all ready).link.flushAnswer = .error 1 := by decide

theorem witness_ExecuteRefusalsInOrder :
    (live .await).txn.tmState ≠ .idle ∧
    (ready.txn.tmState = .idle ∧ (0x42 : Byte) ∉ [(0x00 : Byte), 0x01, 0x03, 0x80, 0x56, 0xD0, 0xD3]) ∧
    255 < (zeros 256).length ∧
    ((0x03 : Byte) ∈ [(0x00 : Byte), 0x01, 0x03, 0x80, 0x56, 0xD0, 0xD3] ∧ (zeros 255).length ≤ 255 ∧
      (State.reset.cfg.retries = 0 ∨ State.reset.cfg.timeout = 0)) := by
  rw [zeros_length, zeros_length]; decide

theorem witness_ExecuteCreatesTransaction :
    ready.txn.tmState = .idle ∧ (0xD3 : Byte) ∈ [(0x00 : Byte), 0x01, 0x03, 0x80, 0x56, 0xD0, 0xD3] ∧ (zeros 255).length ≤ 255 ∧
      ready.cfg.retries ≠ 0 ∧ ready.cfg.timeout ≠ 0 := by
  rw [zeros_length]; decide

theorem witness_CommandsAreExecute :
    (Instr.devReset [0x01], (0xD3 : Byte)) ∈
      [(Instr.startMeas [0x01], (0x00 : Byte)), (.stopMeas [0x01], 0x01), (.readMeas [0x01], 0x03), (.autoclean [0x01], 0x80),
        (.fanClean [0x01], 0x56), (.devInfo [0x01], 0xD0), (.devReset [0x01], 0xD3)] ∧
    ready.txn.tmState = .idle ∧ ready.cfg.retries ≠ 0 ∧ ready.cfg.timeout ≠ 0 := by decide

theorem witness_StartSendsWholeFrame :
    (live .start).txn.tmState = .start ∧ (live .start).link.flushAnswer = .ok ∧ (live .start).link.writeAnswer = .all ∧
      (answering .ok (.upTo 6) (live .start)).link.writeAnswer = .upTo 6 ∧ (requestFrame (live .start).req).length ≤ 6 := by decide

theorem witness_StartFailsOnTransport :
    (live .start).txn.tmState = .start ∧ (answering (.error 0) .all (live .start)).link.flushAnswer = .error 0 ∧
      ((answering .ok (.upTo 5) (live .start)).link.writeAnswer = .upTo 5 ∧ 5 < (requestFrame (live .start).req).length) ∧
      (answering .ok (.error 0) (live .start)).link.writeAnswer = .error 0 := by decide

theorem witness_SentArmsDeadline : (live .sent).txn.tmState = .sent := by decide

theorem witness_BackoffWaitsThenStarts : (live .backoff).txn.tmState = .backoff := by decide

theorem witness_ConsumeReturnsOutcome :
    (live .backoff).txn.tmState ∉ [TmState.completed, .deviceError, .protocolError, .transportError] ∧
    ((live .completed).txn.tmState = .completed ∧ commandIndex (live .completed).req.cmd = some 2 ∧
      (live .completed).cfg.decsel[(2 : Fin 7)] = .meas) ∧
    (∀ s ∈ [{ live .completed with req := { cmd := 0xD3, txLen := 0, txPay := [] } }],
      commandIndex s.req.cmd = some 6 ∧ s.cfg.decsel[(6 : Fin 7)] = .ack) ∧
    (40 ≤ vS6.length ∧ (live .completed).cfg.minMeasLen.toNat ≤ vS6.length ∧ (vS6.take 39).length < 40) ∧
    ((finished .deviceError (recorded .device 0x02 .drain 0 0 [])).txn.tmState = .deviceError ∧
      (finished .deviceError (recorded .device 0x02 .drain 0 0 [])).res.kind = .device) ∧
    (∀ k ∈ [Kind.checksum, .length],
      (finished .protocolError (recorded k 0 .body 0xFC 0xFD [])).txn.tmState = .protocolError ∧
        (finished .protocolError (recorded k 0 .body 0xFC 0xFD [])).res.kind = k) ∧
    (finished .transportError (recorded .transport 0 .off 0 0 [])).txn.tmState = .transportError := by decide

theorem witness_CfgwriteWritesOneRegister : (live .await).txn.tmState ≠ .idle ∧ ready.txn.tmState = .idle := by decide

theorem witness_CatalogAndAckAnswer : (0x05 : Byte) ∉ [(0x00 : Byte), 0x01, 0x02, 0x03, 0x04, 0x28, 0x43] := by decide

theorem witness_MeasdecReadsTenWords :
    ((vS6.take 39).length < 40) ∧ (vS6.length < (44 : Byte).toNat) ∧
    (ready.cfg.minMeasLen.toNat ≤ vS6.length ∧ 40 ≤ vS6.length ∧ vS6[4 * 9]? = some 0x40 ∧ vS6[4 * 9 + 1]? = some 0xA0 ∧
      vS6[4 * 9 + 2]? = some 0x00 ∧ vS6[4 * 9 + 3]? = some 0x00) := by decide

/-- The machine with one operation presented and moves listed. -/
def presented (r : HostRecord) (ts : List Turn) (s : State) : State := { s with hostq := [r], turns := ts }

theorem witness_StepRunsHostOperation :
    ((presented (.req [0x03, 0x00]) [.host] ready).turns = .host :: [] ∧
      (presented (.req [0x03, 0x00]) [.host] ready).hostq = [.req [0x03, 0x00]] ∧
      decode .req [0x03, 0x00] = .ok (.readMeas [])) ∧
    ((presented (.op [7]) [] ready).turns = [] ∧ (presented (.op [7]) [] ready).active = false ∧
      (presented (.op [7]) [] ready).hostq = [.op [7]] ∧ decode .op [7] = .ok .consume) ∧
    ((presented (.op [5]) [.host] (awaiting .body 0 [0x7E])).turns = [.host] ∧
      (presented (.op [5]) [.host] (awaiting .body 0 [0x7E])).hostq = [.op [5]] ∧ decode .op [5] = .ok .decode) := by decide

theorem witness_StepRunsWireOperation :
    (∀ st ∈ [DecState.status, .hunt, .body], (awaiting st 0 [0x7E]).turns = [] ∧ (awaiting st 0 [0x7E]).txn.tmState = .await ∧
      (awaiting st 0 [0x7E]).dec.decState ≠ .off) ∧
    (ReadsByte (awaiting .status 0 [0x7E]) 0x7E [] ∧ decode .status [0x7E] = .ok (.statusOther 0x7E)) ∧
    (ReadsByte (awaiting .hunt 0 [0x7E]) 0x7E [] ∧ decode .delim [0x7E] = .ok .marker) ∧
    (ReadsByte (inBody [] true [0x31]) 0x31 [] ∧ (inBody [] true [0x31]).dec.escPend = true ∧
      decode .esc [0x7D, 0x31] = .ok .esc11) ∧
    (ReadsByte (inBody [] false [0x31]) 0x31 [] ∧ (inBody [] false [0x31]).dec.escPend = false ∧ (0x31 : Byte) ≠ 0x7E) ∧
    (∀ b ∈ [(0x20 : Byte), 0x7D], b ≠ 0x7E ∧ b ∉ [(0x5E : Byte), 0x5D, 0x31, 0x33]) ∧
    (ReadsByte (inBody [] true [0x20]) 0x20 [] ∧ ReadsByte (inBody [] true [0x7D]) 0x7D []) ∧
    ((broken (awaiting .hunt 0 [0x7E])).link.broken = true ∧ (awaiting .hunt 0 []).link.rxq = [] ∧
      ∀ s ∈ [{ awaiting .hunt 0 [0x7E] with now := 1000 }], s.txn.deadline ≤ s.now) :=
  ⟨by decide, ⟨readsByte_awaiting _ _ _ _, by decide⟩, ⟨readsByte_awaiting _ _ _ _, by decide⟩,
    ⟨readsByte_inBody _ _ _ _, by decide, by decide⟩, ⟨readsByte_inBody _ _ _ _, by decide, by decide⟩, by decide,
    ⟨readsByte_inBody _ _ _ _, readsByte_inBody _ _ _ _⟩, by decide⟩

theorem witness_AwaitStepIsDecode : (awaiting .hunt 0 []).txn.tmState = .await := by decide

/-- The invariant in a state of the decode. -/
theorem consistent_inBody : Consistent (inBody [0x00, 0xFC] false [0x7E]) :=
  { decodeRuns := by decide
    buffer := ⟨by decide, by decide⟩
    header := ⟨by decide, by decide, by decide, by decide⟩
    live := fun _ => ⟨by decide, by decide, by decide, by decide, by decide, by decide, by decide, by decide⟩
    result := ⟨by decide, by decide, by decide, by decide, by decide, by decide⟩ }

/-- The first START of a READ_MEAS transaction with three attempts. -/
def begun : State := { live .start with txn := { (live .start).txn with attempt := 0, attRem := 3 } }

theorem consistent_begun : Consistent begun :=
  { decodeRuns := by decide
    buffer := ⟨by decide, by decide⟩
    header := ⟨by decide, by decide, by decide, by decide⟩
    live := fun _ => ⟨by decide, by decide, by decide, by decide, by decide, by decide, by decide, by decide⟩
    result := ⟨by decide, by decide, by decide, by decide, by decide, by decide⟩ }

theorem witness_StepKeepsInvariant :
    Consistent (inBody [0x00, 0xFC] false [0x7E]) ∧ ∃ t, step (inBody [0x00, 0xFC] false [0x7E]) = .next t :=
  ⟨consistent_inBody, ⟨_, rfl⟩⟩

theorem witness_InvariantExcludesFaults : Consistent begun := consistent_begun

theorem witness_OnlyDiagramTransitions :
    ((∃ t, step begun = .next t) ∧ ∃ t, step (presented (.op [9]) [.host] begun) = .next t) ∧
    ((presented (.op [5]) [.host] (awaiting .body 0 [0x7E])).txn.tmState ∈ [TmState.start, .sent, .await, .backoff] ∧
      (nextTurn (presented (.op [5]) [.host] (awaiting .body 0 [0x7E]))).1 = .host ∧
      ∃ t, step (presented (.op [5]) [.host] (awaiting .body 0 [0x7E])) = .next t ∧ t.dec.decState = .body) :=
  ⟨⟨⟨_, rfl⟩, _, rfl⟩, by decide, by decide, _, rfl, by decide⟩

theorem witness_OperandsFrozenWhileBusy :
    (presented (.op [8, 4, 50]) [.host] begun).busy = true ∧ ∃ t, step (presented (.op [8, 4, 50]) [.host] begun) = .next t :=
  ⟨by decide, ⟨_, rfl⟩⟩

theorem witness_TimeNeverDecreases :
    (awaiting .hunt 0 [0x55]).txn.tmState = .await ∧ (nextTurn (awaiting .hunt 0 [0x55])).1 = .engine ∧
      ∃ t, step (awaiting .hunt 0 [0x55]) = .next t ∧ ∃ b, (awaiting .hunt 0 [0x55]).link.rxq = b :: t.link.rxq :=
  ⟨by decide, by decide, _, rfl, 0x55, rfl⟩

theorem witness_EventPortIsNeverRead : ∃ t, step begun = .next t := ⟨_, rfl⟩

theorem witness_CompletedOnlyByValidatedFrame :
    Consistent (inBody [0x00, 0xFC] false [0x7E]) ∧
      ∃ t, step (inBody [0x00, 0xFC] false [0x7E]) = .next t ∧ t.txn.tmState = .completed ∧
        (inBody [0x00, 0xFC] false [0x7E]).txn.tmState ≠ .completed :=
  ⟨consistent_inBody, _, rfl, by decide, by decide⟩

theorem witness_OnlyStartWrites :
    Exclusive begun ∧ ¬ TakesReset begun ∧ ∃ t, step begun = .next t ∧ t.link.tx ≠ begun.link.tx := by
  refine ⟨fun r hr => (nomatch hr), fun h => ?_, _, rfl, by decide⟩
  exact absurd h.1 (by decide)

theorem witness_EveryTransactionEnds : Consistent begun ∧ begun.busy = true ∧ begun.hostq = [] :=
  ⟨consistent_begun, by decide, by decide⟩

theorem witness_SilentDeviceTimesOut :
    Consistent begun ∧ begun.txn.tmState = .start ∧ begun.txn.attempt = 0 ∧ begun.hostq = [] ∧
      begun.link.flushAnswer = .ok ∧ begun.link.writeAnswer = .all ∧ begun.link.broken = false ∧
      ∀ t ∈ begun.turns, NoMarkerTurn t :=
  ⟨consistent_begun, by decide, by decide, by decide, by decide, by decide, by decide, fun t ht => nomatch ht⟩

/-- An oracle that answers one attempt with the response of P1 to STOP_MEAS: garbage, then `7E 00 01 00 00 FE 7E`. -/
def oracle : AttemptOracle :=
  { flushOk := true, taken := some 6, answers := [0xFF, 0x7E, 0x00, 0x01, 0x00, 0x00, 0xFE, 0x7E].map .byte }

/-- The first START of a STOP_MEAS transaction, with CONSUME presented and the moves of the oracle listed. -/
def played : State :=
  { begun with
    req := { cmd := 0x01, txLen := 0, txPay := [] }
    txn := { begun.txn with expCmd := 0x01 }
    hostq := [.op [7]]
    turns := oracleTurns 1000 [oracle] }

theorem consistent_played : Consistent played :=
  { decodeRuns := by decide
    buffer := ⟨by decide, by decide⟩
    header := ⟨by decide, by decide, by decide, by decide⟩
    live := fun _ => ⟨by decide, by decide, by decide, by decide, by decide, by decide, by decide, by decide⟩
    result := ⟨by decide, by decide, by decide, by decide, by decide, by decide⟩ }

theorem witness_BlockingFormAgrees :
    Consistent played ∧ played.txn.tmState = .start ∧ played.txn.attempt = 0 ∧ played.lapse = 0 ∧
      played.hostq = [.op [7]] ∧ played.turns = oracleTurns played.cfg.timeout [oracle] ∧
      (∀ a ∈ [oracle], ExactOracle played.cfg.timeout played.req.cmd
        (encodeFrame 0x00 played.req.cmd played.req.txPay).length a) ∧
      ∀ ts, blockingLoop played.cfg played.req.cmd played.req.txPay ts 0 [oracle] = some (.completedAck []) := by
  refine ⟨consistent_played, by decide, by decide, by decide, by decide, by decide, ?_, fun ts => by rfl⟩
  intro a ha
  cases List.mem_singleton.1 ha
  refine ⟨fun n hn => ?_, fun _ _ => ⟨by decide, ?_⟩⟩
  · cases hn; decide
  · exact ⟨.frame { address := 0x00, command := 0x01, status := 0x00, payload := [] }, by decide⟩

end Sys2Proof.Tests
end

section
/-! PROOFS. 00_scope.md R10, R11: which operation the host's move performs, and that no step of a state that meets the
invariant ends in a fault. -/

namespace Sys2Proof.Machine

open Sys2Proof

/-! ### The host's move (R10; 30_encoding.md R105) -/

@[simp] theorem State.setTurns_self (s : State) : s.setTurns s.turns = s := rfl

/-- A record that decodes stands for the operation it encodes: only a rejected REQ record is read otherwise (log 19). -/
theorem hostInstr_of_decode {f : Format} {bs : List Byte} {r : HostRecord} {i : Instr}
    (hr : (f = .req ∧ r = .req bs) ∨ (f = .op ∧ r = .op bs)) (hd : decode f bs = .ok i) : hostInstr r = .ok i := by
  obtain ⟨rfl, rfl⟩ | ⟨rfl, rfl⟩ := hr
  · simp [hostInstr, hd]
  · exact hd

theorem hostStep_eq_exec {s : State} {r : HostRecord} {rest : List HostRecord} {i : Instr} (hq : s.hostq = r :: rest)
    (hi : hostInstr r = .ok i) (hd : i ≠ .decode) : hostStep s = exec i (s.setHostq rest) := by
  simp [hostStep, hq, hi, hostPerforms, hd]

theorem hostStep_of_decode {s : State} {r : HostRecord} {rest : List HostRecord} (hq : s.hostq = r :: rest)
    (hi : hostInstr r = .ok .decode) : hostStep s = .next (s.setHostq rest) := by
  simp [hostStep, hq, hi, hostPerforms]

/-- The host moves when it is first in the list, and when nothing is listed and no transaction is active (log 1). -/
theorem step_eq_hostStep {s : State} {ts : List Turn}
    (h : s.turns = .host :: ts ∨ (s.turns = [] ∧ ts = [] ∧ s.active = false)) : step s = hostStep (s.setTurns ts) := by
  obtain h | ⟨h, rfl, ha⟩ := h
  · exact step_host h
  · rw [step_inactive h ha, ← h, State.setTurns_self]

/-- Settles O46: the host's move on a record that decodes is the one equation of `hostStep` for its operation. -/
theorem stepRunsHostOperation : Obligations.StepRunsHostOperation := by
  intro s ts f bs r rest i hturn hq hr hdec
  have hi : hostInstr r = .ok i := hostInstr_of_decode hr hdec
  rw [step_eq_hostStep hturn]
  refine ⟨fun hne => hostStep_eq_exec hq hi hne, ?_⟩
  rintro rfl
  exact hostStep_of_decode hq hi

/-! ### The two faults (R11) -/

/-- The states each fault belongs to: a decode asked for in AWAIT while none runs (log 21), a completed transaction whose
command has no decoder (log 20). -/
def StuckFor : Fault → State → Prop
  | .decodeOffInAwait, s => s.txn.tmState = .await ∧ s.dec.decState = .off
  | .noDecoderForCommand, s => s.txn.tmState = .completed ∧ isCommand s.req.cmd = false

/-- Being stuck is a matter of TM_STATE, DEC_STATE and CMD alone. -/
theorem StuckFor.congr {f : Fault} {s t : State} (h : StuckFor f t) (htxn : t.txn = s.txn) (hdec : t.dec = s.dec)
    (hreq : t.req = s.req) : StuckFor f s := by
  cases f <;> simpa only [StuckFor, htxn, hdec, hreq] using h

/-- The invariant rules out both: in AWAIT a decode runs, and a live transaction has a command of the closed set. -/
theorem Consistent.not_stuckFor {s : State} (h : Consistent s) (f : Fault) : ¬ StuckFor f s := by
  cases f with
  | decodeOffInAwait => exact fun ⟨hawait, hoff⟩ => h.decodeRuns.2 hawait hoff
  | noDecoderForCommand =>
    rintro ⟨hdone, hcmd⟩
    have hlive : LiveInv s := h.live ((busy_iff s).2 (by simp [hdone]))
    simp [hlive.command] at hcmd

theorem decodeStep_fault {s : State} {f : Fault} (h : decodeStep s = .fault f) : StuckFor f s := by
  unfold decodeStep at h
  split at h
  · cases h
  · next hawait =>
    split at h
    · next hoff => cases h; exact ⟨not_not.1 hawait, hoff⟩
    · cases h

theorem decoderFor_eq_none_iff (cfg : CfgRegs) (c : Byte) : decoderFor cfg c = none ↔ isCommand c = false := by
  simp [decoderFor, isCommand]

theorem consumeOp_fault {s : State} {f : Fault} (h : consumeOp s = .fault f) : StuckFor f s := by
  unfold consumeOp at h
  split at h
  case h_1 hdone =>
    split at h
    · cases h
    · next hnone => cases h; exact ⟨hdone, (decoderFor_eq_none_iff _ _).1 hnone⟩
  all_goals cases h

/-- Only DECODE and CONSUME have a fault among their outcomes. -/
theorem exec_fault {i : Instr} {s : State} {f : Fault} (h : exec i s = .fault f) : StuckFor f s := by
  cases i
  case decode => exact decodeStep_fault h
  case consume => exact consumeOp_fault h
  case unstuff | chkverify | encode | cfgwrite | measdec | rxbyte =>
    simp only [exec, execUnstuff, execChkverify, execEncode, execCfgwrite, execMeasdec, execRxbyte] at h
    split at h <;> cases h
  all_goals cases h

theorem hostStep_fault {s : State} {f : Fault} (h : hostStep s = .fault f) : StuckFor f s := by
  unfold hostStep at h
  split at h
  · cases h
  · split at h
    · split at h
      · exact (exec_fault h).congr rfl rfl rfl
      · cases h
    · cases h

/-- A wire operation runs on the state RxByte leaves. -/
theorem fetchWire_state {s s' : State} {i : Instr} (h : fetchWire s = some (i, s')) : s' = (rxByte s).2 := by
  unfold fetchWire at h
  split at h
  · cases h
  · split at h
    · split at h
      · obtain ⟨j, -, hj⟩ := Option.map_eq_some_iff.1 h
        exact (Prod.mk.inj hj).2.symm
      · cases h
    all_goals cases h

theorem engineStep_fault {s : State} {f : Fault} (h : engineStep s = .fault f) : StuckFor f s := by
  unfold engineStep at h
  split at h
  case h_3 =>
    split at h
    · next i s' hw =>
      obtain ⟨q, n, -, hrx⟩ := rxByte_frame s
      have hs' : s' = (s.setRxq q).setNow n := (fetchWire_state hw).trans hrx
      exact (exec_fault h).congr (by rw [hs']; rfl) (by rw [hs']; rfl) (by rw [hs']; rfl)
    · exact exec_fault h
  all_goals cases h

/-- A step faults only from a state the fault belongs to. -/
theorem step_fault {s : State} {f : Fault} (h : step s = .fault f) : StuckFor f s := by
  obtain ⟨ts, hts⟩ := nextTurn_frame s
  unfold step at h
  rw [hts] at h
  split at h
  · exact (hostStep_fault h).congr rfl rfl rfl
  · exact (engineStep_fault h).congr rfl rfl rfl
  all_goals cases h

/-- Settles O51: a step faults only where it is stuck, and the invariant excludes both stuck states. -/
theorem invariantExcludesFaults : Obligations.InvariantExcludesFaults :=
  fun _ hs f hstep => hs.not_stuckFor f (step_fault hstep)

end Sys2Proof.Machine
end

section
/-! PROOFS. 10_state.md: the values after reset (R33), the configuration port (R23), bytes of the wire that no decode reads
(R32), and the invariant of the machine, which every operation and every step keeps. -/

namespace Sys2Proof.Machine

open Sys2Proof

/-! ### What the invariant depends on -/

/-- The invariant speaks of the five register groups alone: not of the transport, the time, the ports or the draws. -/
theorem Consistent.congr {s t : State} (h : Consistent s) (hcfg : t.cfg = s.cfg := by rfl) (hreq : t.req = s.req := by rfl)
    (htxn : t.txn = s.txn := by rfl) (hdec : t.dec = s.dec := by rfl) (hres : t.res = s.res := by rfl) : Consistent t := by
  obtain ⟨cfg, req, txn, dec, res, _, _, _, _, _, _, _, _⟩ := s
  obtain ⟨_, _, _, _, _, _, _, _, _, _, _, _, _⟩ := t
  subst hcfg hreq htxn hdec hres
  exact
    { decodeRuns := h.decodeRuns
      buffer := h.buffer
      header := { h.header with }
      live := fun hb => { h.live hb with }
      result := { h.result with } }

/-- With no decode running the header bytes are not spoken of. -/
theorem HeaderInv.of_off {s : State} (h : s.dec.decState = .off) : HeaderInv s := by
  constructor <;> simp [h]

/-- Before the end of the first attempt the result registers are not spoken of. -/
theorem ResultInv.of_undecided {s : State} (hdone : s.done = false) (hb : s.txn.tmState ≠ .backoff) : ResultInv s := by
  unfold State.done at hdone
  constructor <;> intro h
  case attempt => simp_all [State.done]
  case backoff => exact absurd h hb
  all_goals simp [h, isTerminal] at hdone

/-- In IDLE, with the decode off, only the buffer has something to keep. -/
theorem Consistent.of_idle {s : State} (htm : s.txn.tmState = .idle) (hoff : s.dec.decState = .off)
    (hbuf : BufferInv s.dec) : Consistent s where
  decodeRuns := by simp [htm, hoff]
  buffer := hbuf
  header := .of_off hoff
  live := fun hb => absurd htm ((busy_iff s).1 hb)
  result := .of_undecided (by simp [State.done, htm, isTerminal]) (by simp [htm])

theorem Consistent.off {s : State} (h : Consistent s) (htm : s.txn.tmState ≠ .await) : s.dec.decState = .off :=
  not_not.1 fun hon => htm (h.decodeRuns.1 hon)

theorem Consistent.liveInv {s : State} (h : Consistent s) (htm : s.txn.tmState ≠ .idle) : LiveInv s :=
  h.live ((busy_iff s).2 htm)

/-- A move of a live transaction that keeps its counters and operands keeps what holds of them. -/
theorem LiveInv.move {s t : State} (h : LiveInv s)
    (due : t.txn.tmState = .start ∨ t.txn.tmState = .backoff → t.txn.attRem ≠ 0)
    (made : t.txn.tmState ≠ .start → t.txn.attempt ≠ 0)
    (hcfg : t.cfg = s.cfg := by rfl) (hreq : t.req = s.req := by rfl)
    (htxn : t.txn = { s.txn with tmState := t.txn.tmState, deadline := t.txn.deadline } := by rfl) : LiveInv t where
  attempts := by rw [htxn, hcfg]; exact h.attempts
  command := by rw [hreq]; exact h.command
  expCmd := by rw [htxn, hreq]; exact h.expCmd
  expAddr := by rw [htxn]; exact h.expAddr
  payload := by rw [hreq]; exact h.payload
  timeoutSet := by rw [hcfg]; exact h.timeoutSet
  attemptDue := due
  attemptMade := made

/-! ### The values after reset (R33) -/

theorem bufferInv_reset : BufferInv DecRegs.reset := ⟨rfl, Nat.zero_le _⟩

/-- Settles O43. -/
theorem resetStateValues : Obligations.ResetStateValues := by
  unfold Obligations.ResetStateValues
  decide

/-- Settles O49: State.reset is in IDLE with the decode off and an empty buffer. -/
theorem resetMeetsInvariant : Obligations.ResetMeetsInvariant :=
  .of_idle rfl rfl bufferInv_reset

/-! ### The configuration port (R23) -/

theorem execCfgwrite_busy {s : State} (h : s.txn.tmState ≠ .idle) (w : CfgWrite) :
    execCfgwrite w s = .next (refuse (.cfgwrite w) .busy s) := by
  rw [execCfgwrite, if_pos ((busy_iff s).2 h)]

theorem execCfgwrite_idle {s : State} (h : s.txn.tmState = .idle) (w : CfgWrite) :
    execCfgwrite w s = .next ((s.setCfg (writeCfg w s.cfg)).answerWith .accepted) := by
  rw [execCfgwrite, if_neg (by simp [busy_iff, h])]

theorem writeCfg_decsel_get (i j : Fin 7) (d : Decoder) (c : CfgRegs) :
    (writeCfg (.decsel i d) c).decsel[j] = if j = i then d else c.decsel[j] := by
  simp [writeCfg, Vector.getElem_set, Fin.ext_iff, eq_comm]

/-- Settles O41: the two equations of `execCfgwrite`, and of `writeCfg` for each register. -/
theorem cfgwriteWritesOneRegister : Obligations.CfgwriteWritesOneRegister := by
  intro s
  refine ⟨fun w hbusy => execCfgwrite_busy hbusy w, fun hidle => ?_⟩
  have write (w : CfgWrite) := execCfgwrite_idle hidle w
  exact ⟨fun _ => write _, fun _ => write _, fun _ => write _, fun _ => write _, fun _ => write _,
    fun i d => ⟨_, write _, rfl, fun j => writeCfg_decsel_get i j d s.cfg⟩⟩

/-! ### Bytes of the wire outside a decode (R32; log 7) -/

/-- Settles O29: each of the rows is `wireEscape` of its code or `wireByte` of its byte. -/
theorem wireBytesWaitOutsideDecode : Obligations.WireBytesWaitOutsideDecode := by
  intro s hoff
  have byte (b : Byte) : Host.Outcome.next (φ := Fault) (ρ := Refusal) (wireByte b s) = .next _ :=
    congrArg _ (wireByte_waits hoff b)
  have pair (c : Byte) : Host.Outcome.next (φ := Fault) (ρ := Refusal) (wireEscape c s) = .next _ :=
    congrArg _ (wireEscape_waits hoff c)
  refine ⟨fun i bs hrow => ?_, fun code => byte code⟩
  simp only [List.mem_cons, Prod.mk.injEq, List.not_mem_nil, or_false] at hrow
  obtain ⟨rfl, rfl⟩ | ⟨rfl, rfl⟩ | ⟨rfl, rfl⟩ | ⟨rfl, rfl⟩ | hrow := hrow
  · exact pair 0x5E
  · exact pair 0x5D
  · exact pair 0x31
  · exact pair 0x33
  · obtain ⟨rfl, rfl⟩ | ⟨rfl, rfl⟩ | ⟨rfl, rfl⟩ | ⟨rfl, rfl⟩ | ⟨rfl, rfl⟩ | ⟨rfl, rfl⟩ | ⟨rfl, rfl⟩ | ⟨rfl, rfl⟩ := hrow
    all_goals exact byte _

/-! ### The receive buffer (R28; 40_stuffing.md R137) -/

theorem BufferInv.congr {d e : DecRegs} (h : BufferInv d) (hbuf : e.rxBuf = d.rxBuf := by rfl)
    (hcnt : e.rxCnt = d.rxCnt := by rfl) : BufferInv e :=
  ⟨by rw [hbuf, hcnt]; exact h.bufLength, by rw [hcnt]; exact h.cntBound⟩

theorem BufferInv.push {d : DecRegs} (h : BufferInv d) (v : Byte) : BufferInv (push v d) := by
  obtain ⟨hlen, hcnt⟩ := h
  have hsize : Config.RXBUF_SIZE = 257 := rfl
  have hmax : Config.RXCNT_MAX = 258 := rfl
  constructor <;> simp only [Machine.push]
  · by_cases hroom : d.rxCnt < Config.RXBUF_SIZE
    · rw [if_pos hroom, if_pos (by omega), List.length_append, List.length_singleton]; omega
    · rw [if_neg hroom, hlen]; split <;> omega
  · split <;> omega

theorem BufferInv.feed {d : DecRegs} (h : BufferInv d) (b : Byte) : BufferInv (feed b d) := by
  unfold Machine.feed
  split
  · split
    · exact BufferInv.push (d := { d with escPend := false }) h.congr _
    · exact h.congr
  · split
    · exact h.congr
    · exact h.push b

theorem BufferInv.closeRegion {d : DecRegs} (h : BufferInv d) : BufferInv (closeRegion d) := by
  obtain ⟨-, -, -, -, hbuf, hcnt⟩ := closeRegion_header d
  exact h.congr hbuf hcnt

/-! ### What one answer does to the decode registers (42_frame_codec.md R165 to R175) -/

/-- A failure is transient, of the transport, or of the device with the non-zero status it reports (60_exceptions.md R281). -/
inductive FailRec.Classified (f : FailRec) : Prop
  | transient (h : f.kind.isTransient = true)
  | transport (h : f.kind = .transport)
  | device (h : f.kind = .device) {x : Byte} (hstatus : f.status = some x) (hx : x ≠ 0x00)

/-- A result the classification of R207 can take: a payload that has a length byte, or a classified failure. -/
def DecResult.Classified : DecResult → Prop
  | .frame f => f.payload.length ≤ 255
  | .failed f => f.Classified

/-- The decode registers after one answer, with the result if it decided: a decode that goes on keeps what holds of it in
state `s`, and a decode that ends is off with a result that can be classified. -/
inductive DecodeFits (s : State) : DecRegs × Option DecResult → Prop
  | goesOn {d : DecRegs} (on : d.decState ≠ .off) (buffer : BufferInv d) (header : HeaderInv (s.setDec d)) :
    DecodeFits s (d, none)
  | ends {d : DecRegs} {r : DecResult} (off : d.decState = .off) (buffer : BufferInv d) (result : r.Classified) :
    DecodeFits s (d, some r)

theorem DecodeFits.decEnd {s : State} {d : DecRegs} {r : DecResult} (hbuf : BufferInv d) (hr : r.Classified) :
    DecodeFits s (decEnd d r) :=
  .ends rfl hbuf.congr hr

/-- Every failure of the region is transient, and a payload of the region is as long as its length byte says. -/
theorem validateRegion_classified (d : DecRegs) : (validateRegion d).Classified := by
  unfold validateRegion
  split
  · exact .transient rfl
  · split
    · exact .transient rfl
    · split
      · exact .transient rfl
      · simp only
        split
        · exact .transient rfl
        · have hl := (byteAt d.rxBuf 0).isLt
          simp only [DecResult.Classified, List.length_take]
          omega

/-- In each decode state the byte read keeps what is known of the header, or ends the decode. -/
theorem decodeByte_fits {s : State} (hbuf : BufferInv s.dec) (hhdr : HeaderInv s) (hon : s.dec.decState ≠ .off) (b : Byte) :
    DecodeFits s (decodeByte s.txn.expAddr s.txn.expCmd b s.dec) := by
  unfold decodeByte
  split
  case h_1 hst => exact absurd hst hon
  case h_2 hst =>
    split
    · exact .goesOn nofun hbuf.congr (by constructor <;> simp)
    · exact .goesOn hon hbuf (by constructor <;> simp [hst])
  case h_3 hst =>
    split
    · next hb => exact .goesOn nofun hbuf.congr (by constructor <;> simp [hb])
    · exact .decEnd hbuf.congr (.transient rfl)
  case h_4 hst =>
    have haddr := hhdr.addrMatches (.inl hst)
    split
    · next hb => exact .goesOn nofun hbuf.congr (by constructor <;> simp [hb, haddr])
    · exact .decEnd hbuf.congr (.transient rfl)
  case h_5 hst =>
    have haddr := hhdr.addrMatches (.inr (.inl hst))
    have hcmd := hhdr.cmdMatches (.inl hst)
    refine .goesOn ?_ hbuf.congr ?_
    · simp only; split <;> nofun
    · constructor <;> simp [haddr, hcmd]
  case h_6 hst =>
    split
    · exact .decEnd hbuf (.device rfl rfl (hhdr.drainStatus hst))
    · exact .goesOn hon hbuf { hhdr with }
  case h_7 hst =>
    split
    · exact .decEnd hbuf.closeRegion (validateRegion_classified _)
    · obtain ⟨hst', haddr, hcmd, hstatus⟩ := feed_header b s.dec
      exact .goesOn (by rwa [hst']) (hbuf.feed b)
        { addrMatches := by simpa [hst', haddr] using hhdr.addrMatches
          cmdMatches := by simpa [hst', hcmd] using hhdr.cmdMatches
          bodyStatus := by simpa [hst', hstatus] using hhdr.bodyStatus
          drainStatus := by simpa [hst', hstatus] using hhdr.drainStatus }

theorem applyAnswer_fits {s : State} (hbuf : BufferInv s.dec) (hhdr : HeaderInv s) (hon : s.dec.decState ≠ .off)
    (a : RxAnswer) : DecodeFits s (applyAnswer s.txn.expAddr s.txn.expCmd a s.dec) := by
  cases a with
  | byte b => exact decodeByte_fits hbuf hhdr hon b
  | timeout => exact .decEnd hbuf (.transient rfl)
  | error => exact .decEnd hbuf (.transport rfl)

/-! ### The end of an attempt (43_transaction.md R207 to R211) -/

/-- An attempt has been counted and no decode runs: where a frame is written, and where a result is classified. What holds of
a live transaction is read as in SENT, so that it asks only for the count and not for TM_STATE. -/
structure InAttempt (s : State) : Prop where
  live : LiveInv (s.setTm .sent)
  buffer : BufferInv s.dec
  off : s.dec.decState = .off

theorem InAttempt.congr {s t : State} (h : InAttempt s) (hcfg : t.cfg = s.cfg := by rfl) (hreq : t.req = s.req := by rfl)
    (htxn : t.txn = s.txn := by rfl) (hdec : t.dec = s.dec := by rfl) : InAttempt t where
  live := h.live.move (by simp) (fun _ => by simpa [htxn] using h.live.attemptMade (by simp)) hcfg hreq
    (by simp [htxn])
  buffer := hdec ▸ h.buffer
  off := by rw [hdec]; exact h.off

/-- A move of the Transaction Manager out of the attempt, to a state in which no decode runs. -/
theorem InAttempt.leave {s t : State} (h : InAttempt s) (hawait : t.txn.tmState ≠ .await)
    (due : t.txn.tmState = .start ∨ t.txn.tmState = .backoff → s.txn.attRem ≠ 0) (hres : ResultInv t)
    (hcfg : t.cfg = s.cfg := by rfl) (hreq : t.req = s.req := by rfl)
    (htxn : t.txn = { s.txn with tmState := t.txn.tmState } := by rfl) (hdec : t.dec = s.dec := by rfl) : Consistent t where
  decodeRuns := by simp [hdec, h.off, hawait]
  buffer := hdec ▸ h.buffer
  header := .of_off (by rw [hdec, h.off])
  live := fun _ => h.live.move (fun htm => by rw [htxn]; exact due htm)
    (fun _ => by rw [htxn]; exact h.live.attemptMade nofun) hcfg hreq (by rw [htxn]; rfl)
  result := hres

/-- The kind of the recorded failure decides the state entered, and so fits it. -/
theorem FailureTaken.resultInv {f : FailRec} {s t : State} (h : FailureTaken f (failureTarget f.kind s.txn.attRem) s t)
    (hf : f.Classified) : ResultInv t := by
  obtain ⟨hkind, hattempt, -, -, -, hstatus, -, -, htxn, -, -⟩ := h
  cases hf with
  | transient hk =>
    rw [failureTarget_transient hk] at htxn
    split at htxn
    · next hlast => constructor <;> simp [htxn, hlast, hkind, hk, hattempt]
    · constructor <;> simp [htxn, hkind, hk, hattempt]
  | transport hk => constructor <;> simp [htxn, failureTarget, hkind, hk, hattempt]
  | device hk hx hne =>
    constructor
    case deviceError => exact fun _ => ⟨hkind.trans hk, hstatus _ hx ▸ hne⟩
    all_goals simp [htxn, failureTarget, hkind, hk, hattempt]

/-- A classified failure sends the attempt to BACKOFF only while attempts are left, and never back to a decode. -/
theorem failureTarget_leaves (k : Kind) (attRem : Byte) :
    failureTarget k attRem ≠ .await ∧ failureTarget k attRem ≠ .start ∧
      (failureTarget k attRem = .backoff → attRem ≠ 0) := by
  cases k <;> simp [failureTarget] <;> split <;> simp_all

theorem InAttempt.takeFailure {s : State} (h : InAttempt s) {f : FailRec} (hf : f.Classified) :
    Consistent (takeFailure f s) := by
  have ht := takeFailure_taken f s
  obtain ⟨hcfg, hreq, -⟩ := ht.kept
  have htm : (Machine.takeFailure f s).txn.tmState = failureTarget f.kind s.txn.attRem := by rw [ht.txn]
  obtain ⟨hawait, hstart, hbackoff⟩ := failureTarget_leaves f.kind s.txn.attRem
  refine h.leave (htm ▸ hawait) ?_ (ht.resultInv hf) hcfg hreq (by rw [htm]; exact ht.txn) ?_
  · rw [htm]
    rintro (hs | hb)
    · exact absurd hs hstart
    · exact hbackoff hb
  · rw [takeFailure_dec, ← h.off]

theorem InAttempt.takeFrame {s : State} (h : InAttempt s) {f : Frame} (hf : f.payload.length ≤ 255) :
    Consistent (takeFrame f s) := by
  rw [takeFrame_eq]
  refine h.leave nofun (by simp) ?_
  constructor <;> simp [lengthByte_toNat hf]

theorem InAttempt.conclude {s : State} (h : InAttempt s) {r : DecResult} (hr : r.Classified) :
    Consistent (conclude r s) := by
  cases r with
  | frame f => exact h.takeFrame hr
  | failed f => exact h.takeFailure hr

/-! ### The engine's steps (43_transaction.md R205 to R212) -/

theorem beginAttempt_inAttempt {s : State} (h : Consistent s) (hstart : s.txn.tmState = .start) :
    InAttempt (beginAttempt s) := by
  have hlive := h.liveInv (by simp [hstart])
  have hsum := hlive.attempts
  have hdue : s.txn.attRem ≠ 0 := hlive.attemptDue (.inl hstart)
  have hretries := s.cfg.retries.isLt
  have hnext : (s.txn.attempt + 1).toNat = s.txn.attempt.toNat + 1 := by bv_omega
  have hleft : (s.txn.attRem - 1).toNat = s.txn.attRem.toNat - 1 := by bv_omega
  refine ⟨{ hlive with attempts := ?_, attemptDue := by simp, attemptMade := fun _ => ?_ }, h.buffer, h.off (by simp [hstart])⟩
  · show (s.txn.attempt + 1).toNat + (s.txn.attRem - 1).toNat = s.cfg.retries.toNat
    bv_omega
  · show s.txn.attempt + 1 ≠ 0
    bv_omega

theorem InAttempt.sendRequest {s : State} (h : InAttempt s) : Consistent (sendRequest s) := by
  obtain ⟨n, hw⟩ := txWrite_frame (requestFrame s.req) s
  have hsent : InAttempt (txWrite (requestFrame s.req) s).2 := by rw [hw]; exact h.congr
  unfold Machine.sendRequest
  split
  · exact hsent.leave nofun (by simp) (.of_undecided rfl nofun)
  · exact hsent.takeFailure (.transport rfl)

theorem startStep_consistent {s : State} (h : Consistent s) (hstart : s.txn.tmState = .start) :
    Consistent (startStep s) := by
  obtain ⟨q, hq, -⟩ := rxFlush_frame (beginAttempt s)
  have hflushed : InAttempt (rxFlush (beginAttempt s)).2 := by rw [hq]; exact (beginAttempt_inAttempt h hstart).congr
  unfold startStep
  split
  · exact hflushed.sendRequest
  · exact hflushed.takeFailure (.transport rfl)

theorem sentStep_consistent {s : State} (h : Consistent s) (hsent : s.txn.tmState = .sent) : Consistent (sentStep s) where
  decodeRuns := by simp [sentStep, startDecode]
  buffer := ⟨rfl, Nat.zero_le _⟩
  header := by constructor <;> simp [sentStep, startDecode]
  live := fun _ =>
    have hlive := h.liveInv (by simp [hsent])
    hlive.move nofun (fun _ => hlive.attemptMade (by simp [hsent]))
  result := .of_undecided rfl nofun

theorem backoffStep_consistent {s : State} (h : Consistent s) (hbackoff : s.txn.tmState = .backoff) :
    Consistent (backoffStep s) where
  decodeRuns := by simp [backoffStep, delay, h.off (by simp [hbackoff])]
  buffer := h.buffer
  header := .of_off (h.off (by simp [hbackoff]))
  live := fun _ =>
    have hlive := h.liveInv (by simp [hbackoff])
    hlive.move (fun _ => hlive.attemptDue (.inr hbackoff)) (fun hne => absurd rfl hne)
  result := .of_undecided rfl nofun

theorem receiveAnswer_consistent {s : State} (h : Consistent s) (hawait : s.txn.tmState = .await) (a : RxAnswer) :
    Consistent (receiveAnswer a s) := by
  have hfits := applyAnswer_fits h.buffer h.header (h.decodeRuns.2 hawait) a
  generalize hp : applyAnswer s.txn.expAddr s.txn.expCmd a s.dec = p at hfits
  cases hfits with
  | goesOn on buffer header =>
    rw [receiveAnswer_none hp]
    exact
      { decodeRuns := by simp [on, hawait]
        buffer, header
        live := fun hb => { h.live hb with }
        result := { h.result with } }
  | @ends d r off buffer result =>
    have hlive := h.liveInv (by simp [hawait])
    rw [receiveAnswer_some hp]
    have hover : InAttempt (s.setDec d) := ⟨hlive.move nofun fun _ => hlive.attemptMade (by simp [hawait]), buffer, off⟩
    exact hover.conclude result

theorem decodeStep_consistent {s t : State} (h : Consistent s) (hstep : decodeStep s = .next t) : Consistent t := by
  by_cases hawait : s.txn.tmState = .await
  · obtain ⟨q, n, -, hrx⟩ := rxByte_frame s
    rw [decodeStep_await hawait (h.decodeRuns.2 hawait), hrx] at hstep
    cases hstep
    have hread : Consistent ((s.setRxq q).setNow n) := h.congr
    cases (rxByte s).1 with
    | none => exact hread
    | some a => exact receiveAnswer_consistent hread hawait a
  · rw [decodeStep, if_pos hawait] at hstep
    cases hstep
    exact h

/-! ### The rows of the wire (30_encoding.md R93, R94, R96) -/

theorem wireByte_consistent {s : State} (h : Consistent s) (b : Byte) : Consistent (wireByte b s) := by
  by_cases hawait : s.txn.tmState = .await
  · rw [wireByte_decoding hawait (h.decodeRuns.2 hawait)]
    exact receiveAnswer_consistent h hawait _
  · rw [wireByte_waits (.inl hawait)]
    exact h.congr

theorem wireEscape_consistent {s : State} (h : Consistent s) (c : Byte) : Consistent (wireEscape c s) := by
  have hintro := wireByte_consistent h Config.ESC
  unfold wireEscape
  split
  · split
    · exact wireByte_consistent h c
    · simp only
      split
      · exact wireByte_consistent hintro c
      · exact hintro.congr
  · exact h.congr

/-! ### The operations of the host port (43_transaction.md R202 to R204, R213; 10_state.md R23; 70 R320) -/

theorem executeRefusal_eq_none {c : Byte} {p : List Byte} {s : State} (h : executeRefusal c p s = none) :
    s.txn.tmState = .idle ∧ isCommand c = true ∧ p.length ≤ 255 ∧ s.cfg.retries ≠ 0 ∧ s.cfg.timeout ≠ 0 := by
  obtain ⟨ho, -⟩ | ⟨ho, -⟩ | ⟨ho, -⟩ | ⟨ho, -⟩ | ⟨-, haccepted⟩ := executeRefusal_cases c p s
  iterate 4 exact absurd (ho.symm.trans h) nofun
  exact haccepted

theorem executeOp_consistent {s : State} (h : Consistent s) (c : Byte) (p : List Byte) : Consistent (executeOp c p s) := by
  obtain ⟨r, -, he⟩ | ⟨hnone, he⟩ := executeOp_cases c p s <;> rw [he]
  · exact h.congr
  · obtain ⟨hidle, hcmd, hlen, hretries, htimeout⟩ := executeRefusal_eq_none hnone
    have hoff : s.dec.decState = .off := h.off (by simp [hidle])
    exact
      { decodeRuns := by simp [acceptExecute, hoff]
        buffer := h.buffer
        header := .of_off hoff
        live := fun _ =>
          { attempts := by simp [acceptExecute]
            command := hcmd
            expCmd := rfl
            expAddr := rfl
            payload := (lengthByte_toNat hlen).symm
            timeoutSet := Nat.one_le_iff_ne_zero.2 htimeout
            attemptDue := fun _ => hretries
            attemptMade := fun hne => absurd rfl hne }
        result := .of_undecided rfl nofun }

/-- Everything a CONSUME that goes on can do: it is refused, or it answers and returns to IDLE. -/
theorem consumeOp_next {s t : State} (h : consumeOp s = .next t) :
    t = refuse .consume .notDone s ∨ (s.done = true ∧ ∃ a n, t = ((s.answerWith a).setTm .idle).draw n) := by
  unfold consumeOp at h
  split at h
  case h_1 htm =>
    split at h
    · cases h; exact .inr ⟨by simp [State.done, htm, isTerminal], _, 1, rfl⟩
    · cases h
  case h_2 htm | h_3 htm | h_4 htm => cases h; exact .inr ⟨by simp [State.done, htm, isTerminal], _, 0, rfl⟩
  all_goals cases h; exact .inl rfl

theorem consumeOp_consistent {s t : State} (h : Consistent s) (hstep : consumeOp s = .next t) : Consistent t := by
  obtain rfl | ⟨hdone, a, n, rfl⟩ := consumeOp_next hstep
  · exact h.congr
  · exact .of_idle rfl (h.off fun hawait => by simp [State.done, hawait, isTerminal] at hdone) h.buffer

theorem execCfgwrite_consistent {s t : State} (h : Consistent s) {w : CfgWrite} (hstep : execCfgwrite w s = .next t) :
    Consistent t := by
  by_cases hidle : s.txn.tmState = .idle
  · rw [execCfgwrite_idle hidle] at hstep
    cases hstep
    exact .of_idle hidle (h.off (by simp [hidle])) h.buffer
  · rw [execCfgwrite_busy hidle] at hstep
    cases hstep
    exact h.congr

/-! ### The invariant -/

/-- Every operation keeps the invariant, whoever performs it. -/
theorem exec_consistent {i : Instr} {s t : State} (h : Consistent s) (hstep : exec i s = .next t) : Consistent t := by
  obtain ⟨a, rfl⟩ | ⟨c, p, rfl⟩ | ⟨-, hc⟩ | ⟨w, -, hw⟩ | ⟨-, hr⟩ | ⟨-, b, rfl⟩ | ⟨-, c, -, rfl⟩ | ⟨-, hd⟩ |
    ⟨-, hx⟩ | ⟨x, -, rfl⟩ | ⟨-, rfl⟩ := exec_cases hstep
  · exact h.congr
  · exact executeOp_consistent h c p
  · exact consumeOp_consistent h hc
  · exact execCfgwrite_consistent h hw
  · cases hr
    exact .of_idle rfl rfl bufferInv_reset
  · exact wireByte_consistent h b
  · exact wireEscape_consistent h c
  · exact decodeStep_consistent h hd
  · obtain ⟨q, n, -, hrx⟩ := rxByte_frame s
    obtain ⟨a, rfl⟩ | rfl := hx
    · rw [hrx]; exact h.congr
    · exact h.congr
  · obtain ⟨n, hw⟩ := txWrite_frame x s
    generalize (txWrite x s).1 = a
    rw [hw]; exact h.congr
  · obtain ⟨q, hq, -⟩ := rxFlush_frame s
    generalize (rxFlush s).1 = a
    rw [hq]; exact h.congr

theorem engineStep_consistent {s t : State} (h : Consistent s) (hstep : engineStep s = .next t) : Consistent t := by
  unfold engineStep at hstep
  split at hstep
  case h_1 htm => cases hstep; exact startStep_consistent h htm
  case h_2 htm => cases hstep; exact sentStep_consistent h htm
  case h_3 =>
    split at hstep
    · next hw =>
      obtain ⟨q, n, -, hrx⟩ := rxByte_frame s
      rw [fetchWire_state hw, hrx] at hstep
      exact exec_consistent (s := (s.setRxq q).setNow n) h.congr hstep
    · exact exec_consistent h hstep
  case h_4 htm => cases hstep; exact backoffStep_consistent h htm
  all_goals cases hstep; exact h

/-- Settles O50: a move is an operation, a step of the engine, or one that touches no register. -/
theorem stepKeepsInvariant : Obligations.StepKeepsInvariant := by
  intro s t h hstep
  obtain ⟨ts, hmove⟩ := step_cases hstep
  have hturn : Consistent (s.setTurns ts) := h.congr
  obtain ⟨-, -, rfl⟩ | ⟨-, r, rest, i, -, -, ⟨-, he⟩ | ⟨-, rfl⟩⟩ | ⟨-, he⟩ | ⟨bs, -, rfl⟩ | ⟨f, w, b, -, rfl⟩ |
    ⟨n, l, -, rfl⟩ := hmove
  · exact hturn
  · exact exec_consistent (s := (s.setTurns ts).setHostq rest) h.congr he
  · exact h.congr
  · exact engineStep_consistent hturn he
  · exact h.congr
  · exact h.congr
  · exact h.congr

end Sys2Proof.Machine
end

section
/-! PROOFS. 20_memory.md: the three transport primitives (R66 to R68), and what no step but an accepted operation, a RESET, a
write or START changes: the configuration and the operands (R73), TX (R70, R72), and the direction of time (92 D2, D3). -/

namespace Sys2Proof.Machine

open Sys2Proof

/-! ### RXBYTE (R66) -/

/-- RXBYTE answers whatever RxByte answers. -/
theorem exec_rxbyte_answers {s u : State} {a : RxAnswer} (h : rxByte s = (some a, u)) :
    exec .rxbyte s = .next (u.answerWith (.received a)) := by
  simp [exec, execRxbyte, h]

/-- While the call waits its record is presented first again (log 15). -/
theorem exec_rxbyte_waits {s u : State} (h : rxByte s = (none, u)) :
    exec .rxbyte s = .next (s.setHostq (.op [13] :: s.hostq)) := by
  simp [exec, execRxbyte, encode, h]

/-- Settles O31: one equation of RxByte for each clause. -/
theorem rxByteLaws : Obligations.RxByteLaws := by
  intro s
  refine ⟨fun hbroken => ?_, fun hsound hlate => ?_, fun b q hsound htime hq => ?_, fun hsound htime hq hts => ?_,
    fun hsound htime hq hts => ?_⟩
  · exact exec_rxbyte_answers (rxByte_broken hbroken)
  · exact exec_rxbyte_answers (rxByte_expired hsound hlate)
  · exact exec_rxbyte_answers (rxByte_byte hsound htime hq)
  · exact exec_rxbyte_answers (rxByte_dry hsound htime hq hts)
  · exact exec_rxbyte_waits (rxByte_waits hsound htime hq hts)

/-! ### TXWRITE and RXFLUSH (R67, R68) -/

theorem txWrite_all {s : State} (h : s.link.writeAnswer = .all) (f : List Byte) :
    txWrite f s = (.count f.length, linger (s.setLink { s.link with tx := s.link.tx ++ f })) := by
  simp [txWrite, h]

theorem txWrite_upTo {s : State} {n : Nat} (h : s.link.writeAnswer = .upTo n) (f : List Byte) :
    txWrite f s = (.count (f.take n).length, linger (s.setLink { s.link with tx := s.link.tx ++ f.take n })) := by
  simp [txWrite, h]

theorem txWrite_error {s : State} {k : Nat} (h : s.link.writeAnswer = .error k) (f : List Byte) :
    txWrite f s = (.error, linger (s.setLink { s.link with tx := s.link.tx ++ f.take k })) := by
  simp [txWrite, h]

theorem rxFlush_ok {s : State} (h : s.link.flushAnswer = .ok) : rxFlush s = (true, linger (s.setRxq [])) := by
  simp [rxFlush, h]

theorem rxFlush_error {s : State} {k : Nat} (h : s.link.flushAnswer = .error k) :
    rxFlush s = (false, linger (s.setRxq (s.link.rxq.drop k))) := by
  simp [rxFlush, h]

theorem exec_txwrite_answers {f : List Byte} {s u : State} {a : TxAnswer} (h : txWrite f s = (a, u)) :
    exec (.txwrite f) s = .next (u.answerWith (.written a)) := by
  simp [exec, execTxwrite, h]

theorem exec_rxflush_answers {s u : State} {ok : Bool} (h : rxFlush s = (ok, u)) :
    exec .rxflush s = .next (u.answerWith (.flushed ok)) := by
  simp [exec, execRxflush, h]

/-- Settles O32: one equation of TxWrite or RxFlush for each answer of the transport. -/
theorem writeAndFlushLaws : Obligations.WriteAndFlushLaws := by
  intro f s
  refine ⟨fun hall => ?_, fun n hpart => ?_, fun k herr => ?_, fun hok => ?_, fun k herr => ?_⟩
  · exact exec_txwrite_answers (txWrite_all hall f)
  · exact exec_txwrite_answers (txWrite_upTo hpart f)
  · exact exec_txwrite_answers (txWrite_error herr f)
  · exact exec_rxflush_answers (rxFlush_ok hok)
  · exact exec_rxflush_answers (rxFlush_error herr)

/-! ### What most moves leave alone -/

/-- The configuration, the request operands and TX are kept, and time does not go back. -/
structure Undisturbed (s t : State) : Prop where
  cfg : t.cfg = s.cfg
  req : t.req = s.req
  tx : t.link.tx = s.link.tx
  time : s.now ≤ t.now

theorem Undisturbed.refl (s : State) : Undisturbed s s := ⟨rfl, rfl, rfl, le_rfl⟩

theorem Undisturbed.trans {s t u : State} (h : Undisturbed s t) (g : Undisturbed t u) : Undisturbed s u :=
  ⟨g.cfg.trans h.cfg, g.req.trans h.req, g.tx.trans h.tx, h.time.trans g.time⟩

theorem delay_undisturbed (n : Nat) (s : State) : Undisturbed s (delay n s) :=
  ⟨rfl, rfl, rfl, (Nat.le_add_right _ _).trans (Nat.le_add_right _ _)⟩

theorem rxByte_undisturbed (s : State) : Undisturbed s (rxByte s).2 := by
  obtain ⟨q, n, hn, hrx⟩ := rxByte_frame s
  rw [hrx]
  exact ⟨rfl, rfl, rfl, hn⟩

theorem rxFlush_undisturbed (s : State) : Undisturbed s (rxFlush s).2 := by
  obtain ⟨q, hq, -⟩ := rxFlush_frame s
  rw [hq]
  exact ⟨rfl, rfl, rfl, Nat.le_add_right _ _⟩

/-- The classification of a result takes no time and touches neither the transport nor the operands (43_transaction.md
R208 to R211). -/
theorem conclude_kept (r : DecResult) (s : State) :
    (conclude r s).cfg = s.cfg ∧ (conclude r s).req = s.req ∧ (conclude r s).link = s.link ∧
      (conclude r s).now = s.now := by
  cases r with
  | frame f => simp [conclude, takeFrame_eq]
  | failed f =>
    obtain ⟨hcfg, hreq, hlink, hnow, -⟩ := (takeFailure_taken f s).kept
    exact ⟨hcfg, hreq, hlink, hnow⟩

theorem failTransport_undisturbed (s : State) : Undisturbed s (failTransport s) := by
  obtain ⟨hcfg, hreq, hlink, hnow⟩ :=
    conclude_kept (.failed { kind := .transport, step := .off, expect := none, got := none, status := none }) s
  exact ⟨hcfg, hreq, congrArg _ hlink, hnow.ge⟩

/-- One answer applied in a decode leaves the transport and the time as RxByte left them. -/
theorem receive_kept (a : Option RxAnswer) (s : State) :
    (receive a s).cfg = s.cfg ∧ (receive a s).req = s.req ∧ (receive a s).link = s.link ∧
      (receive a s).now = s.now := by
  cases a with
  | none => exact ⟨rfl, rfl, rfl, rfl⟩
  | some a =>
    simp only [receive_some, receiveAnswer, settle]
    split
    · exact ⟨rfl, rfl, rfl, rfl⟩
    · exact conclude_kept _ (s.setDec _)

theorem receive_undisturbed (a : Option RxAnswer) (s : State) : Undisturbed s (receive a s) := by
  obtain ⟨hcfg, hreq, hlink, hnow⟩ := receive_kept a s
  exact ⟨hcfg, hreq, congrArg _ hlink, hnow.ge⟩

theorem wireByte_undisturbed (b : Byte) (s : State) : Undisturbed s (wireByte b s) := by
  unfold wireByte
  split
  · exact receive_undisturbed (some (.byte b)) s
  · exact ⟨rfl, rfl, rfl, le_rfl⟩

theorem wireEscape_undisturbed (c : Byte) (s : State) : Undisturbed s (wireEscape c s) := by
  have hintro := wireByte_undisturbed Config.ESC s
  unfold wireEscape
  split
  · split
    · exact wireByte_undisturbed c s
    · simp only
      split
      · exact hintro.trans (wireByte_undisturbed c _)
      · exact hintro.trans ⟨rfl, rfl, rfl, le_rfl⟩
  · exact ⟨rfl, rfl, rfl, le_rfl⟩

/-- A step of DECODE that goes on: nothing outside AWAIT, in AWAIT one answer of RxByte applied. -/
theorem decodeStep_next {s t : State} (h : decodeStep s = .next t) :
    (s.txn.tmState ≠ .await ∧ t = s) ∨ (s.txn.tmState = .await ∧ t = receive (rxByte s).1 (rxByte s).2) := by
  unfold decodeStep at h
  split at h
  · next hne => cases h; exact .inl ⟨hne, rfl⟩
  · next hawait =>
    split at h
    · cases h
    · cases h; exact .inr ⟨not_not.1 hawait, rfl⟩

theorem decodeStep_undisturbed {s t : State} (h : decodeStep s = .next t) : Undisturbed s t := by
  obtain ⟨-, rfl⟩ | ⟨-, rfl⟩ := decodeStep_next h
  · exact .refl _
  · exact (rxByte_undisturbed s).trans (receive_undisturbed _ _)

theorem consumeOp_undisturbed {s t : State} (h : consumeOp s = .next t) : Undisturbed s t := by
  obtain rfl | ⟨-, a, n, rfl⟩ := consumeOp_next h <;> exact ⟨rfl, rfl, rfl, le_rfl⟩

/-! ### What an operation changes of them -/

/-- Everything an operation can do to the configuration, the request operands, TX and the time: nothing but let time pass,
or be an EXECUTE or CFGWRITE accepted in IDLE, a RESET, or a primitive that writes. -/
inductive OpEffect (i : Instr) (s t : State) : Prop
  | quiet (h : Undisturbed s t)
  | accepted (idle : s.busy = false) (tx : t.link.tx = s.link.tx) (time : s.now ≤ t.now)
  | reset (isReset : i = .reset) (time : s.now ≤ t.now)
  | write (primitive : isPrimitive i = true) (cfg : t.cfg = s.cfg) (req : t.req = s.req) (time : s.now ≤ t.now)

/-- Taking a move or a record is no part of the effect. -/
theorem OpEffect.congr {i : Instr} {s s' t : State} (h : OpEffect i s t) (hcfg : s.cfg = s'.cfg := by rfl)
    (hreq : s.req = s'.req := by rfl) (htxn : s.txn = s'.txn := by rfl) (hlink : s.link = s'.link := by rfl)
    (hnow : s.now = s'.now := by rfl) : OpEffect i s' t := by
  cases h with
  | quiet h => exact .quiet ⟨hcfg ▸ h.cfg, hreq ▸ h.req, hlink ▸ h.tx, hnow ▸ h.time⟩
  | accepted idle tx time => exact .accepted (by simpa only [State.busy, htxn] using idle) (hlink ▸ tx) (hnow ▸ time)
  | reset isReset time => exact .reset isReset (hnow ▸ time)
  | write primitive cfg req time => exact .write primitive (hcfg ▸ cfg) (hreq ▸ req) (hnow ▸ time)

theorem executeOp_effect (i : Instr) (c : Byte) (p : List Byte) (s : State) : OpEffect i s (executeOp c p s) := by
  obtain ⟨r, -, he⟩ | ⟨hnone, he⟩ := executeOp_cases c p s <;> rw [he]
  · exact .quiet ⟨rfl, rfl, rfl, le_rfl⟩
  · obtain ⟨hidle, -⟩ := executeRefusal_eq_none hnone
    exact .accepted (by simp [State.busy, hidle]) rfl le_rfl

theorem execCfgwrite_effect {i : Instr} {w : CfgWrite} {s t : State} (h : execCfgwrite w s = .next t) :
    OpEffect i s t := by
  by_cases hidle : s.txn.tmState = .idle
  · rw [execCfgwrite_idle hidle] at h
    cases h
    exact .accepted (by simp [State.busy, hidle]) rfl le_rfl
  · rw [execCfgwrite_busy hidle] at h
    cases h
    exact .quiet ⟨rfl, rfl, rfl, le_rfl⟩

theorem exec_effect {i : Instr} {s t : State} (h : exec i s = .next t) : OpEffect i s t := by
  obtain ⟨a, rfl⟩ | ⟨c, p, rfl⟩ | ⟨-, hc⟩ | ⟨w, -, hw⟩ | ⟨hi, hr⟩ | ⟨-, b, rfl⟩ | ⟨-, c, -, rfl⟩ | ⟨-, hd⟩ |
    ⟨-, hx⟩ | ⟨x, hi, rfl⟩ | ⟨-, rfl⟩ := exec_cases h
  · exact .quiet ⟨rfl, rfl, rfl, le_rfl⟩
  · exact executeOp_effect i c p s
  · exact .quiet (consumeOp_undisturbed hc)
  · exact execCfgwrite_effect hw
  · cases hr
    exact .reset hi le_rfl
  · exact .quiet (wireByte_undisturbed b s)
  · exact .quiet (wireEscape_undisturbed c s)
  · exact .quiet (decodeStep_undisturbed hd)
  · obtain ⟨a, rfl⟩ | rfl := hx
    · exact .quiet { rxByte_undisturbed s with }
    · exact .quiet ⟨rfl, rfl, rfl, le_rfl⟩
  · obtain ⟨n, hw⟩ := txWrite_frame x s
    generalize (txWrite x s).1 = a
    rw [hw]
    exact .write (by rw [hi]; rfl) rfl rfl (Nat.le_add_right _ _)
  · exact .quiet { rxFlush_undisturbed s with }

theorem OpEffect.time {i : Instr} {s t : State} (h : OpEffect i s t) : s.now ≤ t.now := by
  cases h with
  | quiet h => exact h.time
  | accepted _ _ time | reset _ time | write _ _ _ time => exact time

/-- In a live transaction only a RESET changes the configuration or the operands (R73; 43_transaction.md R203; 10_state.md R23). -/
theorem OpEffect.operands_of_busy {i : Instr} {s t : State} (h : OpEffect i s t) (hbusy : s.busy = true)
    (hi : i ≠ .reset) : t.cfg = s.cfg ∧ t.req = s.req := by
  cases h with
  | quiet h => exact ⟨h.cfg, h.req⟩
  | accepted idle => simp [idle] at hbusy
  | reset isReset => exact absurd isReset hi
  | write _ cfg req => exact ⟨cfg, req⟩

theorem OpEffect.tx_of_not_primitive {i : Instr} {s t : State} (h : OpEffect i s t) (hi : i ≠ .reset)
    (hp : isPrimitive i = false) : t.link.tx = s.link.tx := by
  cases h with
  | quiet h => exact h.tx
  | accepted _ tx => exact tx
  | reset isReset => exact absurd isReset hi
  | write primitive => simp [primitive] at hp

/-! ### The bytes the engine reads in AWAIT -/

theorem fetchWire_eq_some {s s' : State} {i : Instr} (h : fetchWire s = some (i, s')) :
    ∃ b f bs, (rxByte s).1 = some (.byte b) ∧ wireRecord s.dec b = some (f, bs) ∧ decode f bs = .ok i := by
  unfold fetchWire at h
  split at h
  · cases h
  · split at h
    · next b hb =>
      split at h
      · next f bs hrec =>
        obtain ⟨j, hj, hpair⟩ := Option.map_eq_some_iff.1 h
        obtain ⟨rfl, -⟩ := Prod.mk.inj hpair
        refine ⟨b, f, bs, hb, hrec, ?_⟩
        cases hdec : decode f bs <;> simp_all [Except.toOption]
      · cases h
    all_goals cases h

theorem statusInstr_not_op (b : Byte) : (encode (statusInstr b)).1 ≠ .op := by
  unfold statusInstr
  split_ifs <;> nofun

/-- A byte of the wire stands for a status, the marker or an escape pair, never for an operation of the host port. -/
theorem wireRecord_not_op {d : DecRegs} {b : Byte} {f : Format} {bs : List Byte} {i : Instr}
    (hrec : wireRecord d b = some (f, bs)) (hdec : decode f bs = .ok i) : (encode i).1 ≠ .op := by
  unfold wireRecord at hrec
  split_ifs at hrec with hstatus hmarker hpair <;> cases hrec
  · cases hdec
    exact statusInstr_not_op b
  · rw [decode, decodeDelim, if_pos hmarker] at hdec
    cases hdec
    nofun
  · rw [decode, decodeEsc] at hdec
    split_ifs at hdec <;> cases hdec <;> nofun

theorem isPrimitive_op {i : Instr} (h : isPrimitive i = true) : (encode i).1 = .op := by
  unfold isPrimitive at h
  split at h
  case h_4 => cases h
  all_goals rfl

/-- In a live transaction a row of the wire only takes time. -/
theorem OpEffect.undisturbed_of_wire {i : Instr} {s t : State} (h : OpEffect i s t) (hbusy : s.busy = true)
    (hwire : (encode i).1 ≠ .op) : Undisturbed s t := by
  cases h with
  | quiet h => exact h
  | accepted idle => simp [idle] at hbusy
  | reset isReset => exact absurd (by rw [isReset]; rfl) hwire
  | write primitive => exact absurd (isPrimitive_op primitive) hwire

/-- The engine's step in AWAIT: a row of the wire on the state with its byte read, or DECODE. -/
theorem engineStep_await {s t : State} (hawait : s.txn.tmState = .await) (h : engineStep s = .next t) :
    (∃ b, (rxByte s).1 = some (.byte b) ∧ Undisturbed (rxByte s).2 t) ∨ decodeStep s = .next t := by
  unfold engineStep at h
  simp only [hawait] at h
  split at h
  · next i s' hw =>
    obtain ⟨b, f, bs, hb, hrec, hdec⟩ := fetchWire_eq_some hw
    obtain ⟨q, n, -, hrx⟩ := rxByte_frame s
    have hbusy : (rxByte s).2.busy = true := by rw [hrx]; simp [busy_iff, hawait]
    rw [fetchWire_state hw] at h
    exact .inl ⟨b, hb, (exec_effect h).undisturbed_of_wire hbusy (wireRecord_not_op hrec hdec)⟩
  · exact .inr h

theorem rxByte_byte_tick {s : State} {b : Byte} (h : (rxByte s).1 = some (.byte b)) : s.now + 1 ≤ (rxByte s).2.now := by
  obtain ⟨q, -, -, -, hrx⟩ := rxByte_eq_byte h
  rw [hrx]
  exact Nat.le_add_right _ _

/-- RxByte that answers no byte takes none. -/
theorem rxByte_byte_or_rxq (s : State) :
    (∃ b, (rxByte s).1 = some (.byte b)) ∨ (rxByte s).2.link.rxq = s.link.rxq := by
  obtain ⟨-, hrx⟩ | ⟨-, -, hrx⟩ | ⟨b, q, -, -, -, hrx⟩ | ⟨-, -, -, -, hrx⟩ | ⟨-, -, -, -, hrx⟩ := rxByte_cases s <;>
    rw [hrx]
  · exact .inr rfl
  · exact .inr rfl
  · exact .inl ⟨b, rfl⟩
  · exact .inr rfl
  · exact .inr rfl

/-- A byte leaves RXQ by that step only while a tick passes (R66 law 3). -/
theorem engineStep_await_tick {s t : State} (hawait : s.txn.tmState = .await) (h : engineStep s = .next t) :
    s.now + 1 ≤ t.now ∨ t.link.rxq = s.link.rxq := by
  obtain ⟨b, hb, ht⟩ | hdec := engineStep_await hawait h
  · exact .inl ((rxByte_byte_tick hb).trans ht.time)
  · obtain ⟨hne, -⟩ | ⟨-, rfl⟩ := decodeStep_next hdec
    · exact absurd hawait hne
    · obtain ⟨-, -, hlink, hnow⟩ := receive_kept (rxByte s).1 (rxByte s).2
      rw [hlink, hnow]
      exact (rxByte_byte_or_rxq s).imp (fun ⟨_, hb⟩ => rxByte_byte_tick hb) id

/-! ### The step in START (43_transaction.md R205) -/

/-- The configuration and the operands are kept, time does not go back, and a leading part of the request frame is appended
to TX. -/
structure RequestWritten (s t : State) : Prop where
  cfg : t.cfg = s.cfg
  req : t.req = s.req
  time : s.now ≤ t.now
  tx : ∃ n, t.link.tx = s.link.tx ++ (requestFrame s.req).take n

/-- Nothing of the frame may have been written. -/
theorem Undisturbed.requestWritten {s t : State} (h : Undisturbed s t) : RequestWritten s t :=
  ⟨h.cfg, h.req, h.time, 0, by simp [h.tx]⟩

theorem RequestWritten.trans {s t u : State} (h : RequestWritten s t) (g : Undisturbed t u) : RequestWritten s u :=
  ⟨g.cfg.trans h.cfg, g.req.trans h.req, h.time.trans g.time, g.tx ▸ h.tx⟩

theorem Undisturbed.trans_requestWritten {s t u : State} (h : Undisturbed s t) (g : RequestWritten t u) :
    RequestWritten s u :=
  ⟨g.cfg.trans h.cfg, g.req.trans h.req, h.time.trans g.time, by rw [← h.tx, ← h.req]; exact g.tx⟩

theorem txWrite_requestWritten (s : State) : RequestWritten s (txWrite (requestFrame s.req) s).2 := by
  obtain ⟨n, hw⟩ := txWrite_frame (requestFrame s.req) s
  rw [hw]
  exact ⟨rfl, rfl, Nat.le_add_right _ _, n, rfl⟩

theorem sendRequest_requestWritten (s : State) : RequestWritten s (sendRequest s) := by
  unfold sendRequest
  split
  · exact (txWrite_requestWritten s).trans ⟨rfl, rfl, rfl, le_rfl⟩
  · exact (txWrite_requestWritten s).trans (failTransport_undisturbed _)

theorem startStep_requestWritten (s : State) : RequestWritten s (startStep s) := by
  have hbegun : Undisturbed s (beginAttempt s) := ⟨rfl, rfl, rfl, le_rfl⟩
  have hflushed := hbegun.trans (rxFlush_undisturbed _)
  unfold startStep
  split
  · exact hflushed.trans_requestWritten (sendRequest_requestWritten _)
  · exact (hflushed.trans (failTransport_undisturbed _)).requestWritten

/-! ### The step of the machine -/

theorem engineStep_effect {s t : State} (h : engineStep s = .next t) :
    Undisturbed s t ∨ (s.txn.tmState = .start ∧ RequestWritten s t) := by
  cases htm : s.txn.tmState with
  | start =>
    simp only [engineStep, htm] at h
    cases h
    exact .inr ⟨rfl, startStep_requestWritten s⟩
  | sent =>
    simp only [engineStep, htm] at h
    cases h
    exact .inl ((delay_undisturbed s.cfg.settle s).trans ⟨rfl, rfl, rfl, le_rfl⟩)
  | await =>
    obtain ⟨-, -, ht⟩ | hdec := engineStep_await htm h
    · exact .inl ((rxByte_undisturbed s).trans ht)
    · exact .inl (decodeStep_undisturbed hdec)
  | backoff =>
    simp only [engineStep, htm] at h
    cases h
    exact .inl ((delay_undisturbed s.cfg.backoff s).trans ⟨rfl, rfl, rfl, le_rfl⟩)
  | idle | completed | deviceError | protocolError | transportError =>
    simp only [engineStep, htm] at h
    cases h
    exact .inl (.refl s)

/-- Everything a step can do to the configuration, the request operands, TX and the time: it only takes time, or the host's
move performs an operation, or it is the engine's in START. -/
inductive StepEffect (s t : State) : Prop
  | quiet (h : Undisturbed s t)
  | host {r : HostRecord} {rest : List HostRecord} {i : Instr} (turn : (nextTurn s).1 = .host)
    (presented : s.hostq = r :: rest) (instr : hostInstr r = .ok i) (effect : OpEffect i s t)
  | start (state : s.txn.tmState = .start) (turn : (nextTurn s).1 = .engine) (written : RequestWritten s t)

theorem step_effect {s t : State} (h : step s = .next t) : StepEffect s t := by
  obtain ⟨ts, hmove⟩ := step_cases h
  have hturn : Undisturbed s (s.setTurns ts) := ⟨rfl, rfl, rfl, le_rfl⟩
  obtain ⟨-, -, rfl⟩ | ⟨hhost, r, rest, i, hq, hi, ⟨-, he⟩ | ⟨-, rfl⟩⟩ | ⟨hengine, he⟩ | ⟨bs, -, rfl⟩ |
    ⟨f, w, b, -, rfl⟩ | ⟨n, l, -, rfl⟩ := hmove
  · exact .quiet hturn
  · exact .host hhost hq hi (exec_effect he).congr
  · exact .quiet ⟨rfl, rfl, rfl, le_rfl⟩
  · obtain ht | ⟨hstart, hw⟩ := engineStep_effect he
    · exact .quiet (hturn.trans ht)
    · exact .start hstart hengine (hturn.trans_requestWritten hw)
  · exact .quiet ⟨rfl, rfl, rfl, le_rfl⟩
  · exact .quiet ⟨rfl, rfl, rfl, le_rfl⟩
  · exact .quiet ⟨rfl, rfl, rfl, Nat.le_add_right _ _⟩

/-- Settles O53: of the three effects of a step only a host operation could change them, and in a live transaction that is
a RESET. -/
theorem operandsFrozenWhileBusy : Obligations.OperandsFrozenWhileBusy := by
  intro s t hbusy hstep
  cases step_effect hstep with
  | quiet h => exact .inr ⟨h.cfg, h.req⟩
  | @host r rest i turn presented instr effect =>
    by_cases hi : i = .reset
    · exact .inl ⟨turn, r, rest, presented, hi ▸ instr⟩
    · exact .inr (effect.operands_of_busy hbusy hi)
  | start _ _ written => exact .inr ⟨written.cfg, written.req⟩

theorem step_time {s t : State} (h : step s = .next t) : s.now ≤ t.now := by
  cases step_effect h with
  | quiet h => exact h.time
  | host _ _ _ effect => exact effect.time
  | start _ _ written => exact written.time

theorem step_of_engine_turn {s : State} (h : (nextTurn s).1 = .engine) : ∃ ts, step s = engineStep (s.setTurns ts) := by
  obtain ⟨ts, hts⟩ := nextTurn_frame s
  exact ⟨ts, by rw [step, h, hts]⟩

/-- Settles O54: every effect of a step keeps the direction of time; in AWAIT the engine takes a byte only by RxByte. -/
theorem timeNeverDecreases : Obligations.TimeNeverDecreases := by
  intro s t hstep
  refine ⟨step_time hstep, fun hawait hturn ⟨b, htaken⟩ => ?_⟩
  obtain ⟨ts, hengine⟩ := step_of_engine_turn hturn
  rw [hengine] at hstep
  obtain htick | hkept := engineStep_await_tick (s := s.setTurns ts) hawait hstep
  · exact htick
  · have hkept : t.link.rxq = s.link.rxq := hkept
    simp [hkept] at htaken

/-- Settles O57: a host operation that is neither a RESET nor a primitive keeps TX, and so does every step of the engine but
the one in START. -/
theorem onlyStartWrites : Obligations.OnlyStartWrites := by
  intro s t hexcl hstep htx hreset
  cases step_effect hstep with
  | quiet h => exact absurd h.tx htx
  | @host r rest i turn presented instr effect =>
    have hi : i ≠ .reset := fun hi => hreset ⟨turn, r, rest, presented, hi ▸ instr⟩
    have hprim : isPrimitive i = false := hexcl r (by simp [presented]) i instr
    exact absurd (effect.tx_of_not_primitive hi hprim) htx
  | start state turn written => exact ⟨state, turn, written.tx⟩

end Sys2Proof.Machine
end

section
/-! PROOFS. 30_encoding.md: decoder and encoder agree in both directions (R90 to R97, R106), and what the rows of the wire do
to a running decode (R93, R94, R96). -/

namespace Sys2Proof

/-! ### The parts of a record -/

theorem readNat_eq_some_iff {bs rest : List Byte} {n : Nat} :
    readNat bs = some (n, rest) ↔ bs = writeNat n ++ rest :=
  ⟨writeNat_of_readNat bs n rest, fun h => h ▸ readNat_writeNat n rest⟩

theorem readNat_writeNat_end (n : Nat) : readNat (writeNat n) = some (n, []) :=
  readNat_eq_some_iff.2 (List.append_nil _).symm

theorem withPayload_eq_ok_iff {p : List Byte} {i j : Instr} :
    withPayload p i = .ok j ↔ payloadFits p = true ∧ i = j := by
  unfold withPayload
  split <;> simp_all

theorem bare_eq_ok_iff {i j : Instr} {bs : List Byte} : bare i bs = .ok j ↔ bs = [] ∧ i = j := by
  cases bs <;> simp [bare]

theorem payloadFits_iff (p : List Byte) : payloadFits p = true ↔ p.length ≤ 255 := decide_eq_true_iff

/-- The length byte of a payload that fits is its length (R97). -/
theorem length_eq_toNat_iff {p : List Byte} {l : Byte} :
    p.length = l.toNat ↔ payloadFits p = true ∧ BitVec.ofNat 8 p.length = l := by
  have hl := l.isLt
  rw [payloadFits_iff, ← BitVec.toNat_inj, BitVec.toNat_ofNat]
  omega

theorem statusInstr_of_unlisted {c : Byte} (h : listedStatus c = false) : statusInstr c = .statusOther c := by
  unfold statusInstr
  split_ifs <;> simp_all [listedStatus]

/-! ### Decoding a record that was encoded -/

theorem decode_reqRecord {p : List Byte} (hfit : payloadFits p = true) (c : Byte) :
    decode (reqRecord c p).1 (reqRecord c p).2 = commandInstr c p := by
  simp only [decode, reqRecord, decodeReq]
  rw [if_pos (length_eq_toNat_iff.2 ⟨hfit, rfl⟩)]

theorem cfgNat_writeNat (w : Nat → CfgWrite) (n : Nat) : cfgNat w (writeNat n) = .ok (.cfgwrite (w n)) := by
  simp [cfgNat, readNat_writeNat_end]

theorem cfgDecsel_record (j : Fin 7) (d : Decoder) :
    cfgDecsel [BitVec.ofNat 8 j.val, decoderBit d] = .ok (.cfgwrite (.decsel j d)) := by
  revert j
  cases d <;> decide

theorem decodeCfg_cfgBytes (w : CfgWrite) : decodeCfg (cfgBytes w) = .ok (.cfgwrite w) := by
  cases w with
  | retries v | minMeasLen v => rfl
  | timeout n | backoff n | settle n => exact cfgNat_writeNat _ n
  | decsel j d => exact cfgDecsel_record j d

theorem decodeMeasdec_record {p : List Byte} (hfit : payloadFits p = true) (ts : Nat) :
    decodeMeasdec (writeNat ts ++ p) = .ok (.measdec p ts) := by
  rw [decodeMeasdec, readNat_writeNat]
  exact withPayload_eq_ok_iff.2 ⟨hfit, rfl⟩

/-- Settles O2: the operations with a payload, a number, a register or a status code have a lemma of their own; the record of
every other operation decodes by computation. -/
theorem decodeOfEncode : Obligations.DecodeOfEncode := by
  intro i hwf
  cases i with
  | startMeas p | stopMeas p | readMeas p | autoclean p | fanClean p | devInfo p | devReset p =>
    exact decode_reqRecord hwf _
  | statusOther c => exact congrArg Except.ok (statusInstr_of_unlisted (by simpa [WellFormed, Instr.wf] using hwf))
  | chkgen | chkverify | encode | ackdec => exact withPayload_eq_ok_iff.2 ⟨hwf, rfl⟩
  | cfgwrite w => exact decodeCfg_cfgBytes w
  | measdec p ts => exact decodeMeasdec_record hwf ts
  | _ => rfl

/-! ### Encoding an operation that was decoded -/

/-- The operation is well formed and this is its record. -/
def HasRecord (f : Format) (bs : List Byte) (i : Instr) : Prop := WellFormed i ∧ encode i = (f, bs)

theorem commandInstr_hasRecord {c : Byte} {p : List Byte} {i : Instr} (hfit : payloadFits p = true)
    (h : commandInstr c p = .ok i) : HasRecord .req (reqRecord c p).2 i := by
  unfold commandInstr at h
  split_ifs at h with h1 h2 h3 h4 h5 h6 h7 <;> cases h <;> subst c <;> exact ⟨hfit, rfl⟩

theorem decodeReq_hasRecord {bs : List Byte} {i : Instr} (h : decodeReq bs = .ok i) : HasRecord .req bs i := by
  unfold decodeReq at h
  split at h
  · split at h
    · next c l p hlen =>
      obtain ⟨hfit, rfl⟩ := length_eq_toNat_iff.1 hlen
      exact commandInstr_hasRecord hfit h
    · cases h
  · cases h

theorem decodeEsc_hasRecord {bs : List Byte} {i : Instr} (h : decodeEsc bs = .ok i) : HasRecord .esc bs i := by
  unfold decodeEsc at h
  split at h
  · next intro c =>
    split_ifs at h with hesc h5E h5D h31 h33
    all_goals
      cases h
      obtain rfl := not_not.1 hesc
      subst c
      exact ⟨rfl, rfl⟩
  all_goals cases h

theorem decodeDelim_hasRecord {bs : List Byte} {i : Instr} (h : decodeDelim bs = .ok i) : HasRecord .delim bs i := by
  unfold decodeDelim at h
  split at h
  · split_ifs at h with hmarker
    cases h
    subst hmarker
    exact ⟨rfl, rfl⟩
  all_goals cases h

/-- Every status byte is the record of its operation: the listed codes of their rows, the rest of STATUS_OTHER (R103). -/
theorem statusInstr_hasRecord (b : Byte) : HasRecord .status [b] (statusInstr b) := by
  unfold statusInstr
  split_ifs
  case neg => exact ⟨by simp_all [WellFormed, Instr.wf, listedStatus], rfl⟩
  all_goals
    subst b
    exact ⟨rfl, rfl⟩

theorem decodeStatus_hasRecord {bs : List Byte} {i : Instr} (h : decodeStatus bs = .ok i) : HasRecord .status bs i := by
  unfold decodeStatus at h
  split at h
  · next b =>
    cases h
    exact statusInstr_hasRecord b
  all_goals cases h

theorem withPayload_hasRecord {f : Format} {p bs : List Byte} {i j : Instr} (h : withPayload p i = .ok j)
    (hrec : payloadFits p = true → HasRecord f bs i) : HasRecord f bs j := by
  obtain ⟨hfit, rfl⟩ := withPayload_eq_ok_iff.1 h
  exact hrec hfit

theorem bare_hasRecord {k : Byte} {bs : List Byte} {i j : Instr} (h : bare i bs = .ok j)
    (hrec : HasRecord .op [k] i) : HasRecord .op (k :: bs) j := by
  obtain ⟨rfl, rfl⟩ := bare_eq_ok_iff.1 h
  exact hrec

theorem decodeChkgen_hasRecord {bs : List Byte} {i : Instr} (h : decodeChkgen bs = .ok i) : HasRecord .op (2 :: bs) i := by
  unfold decodeChkgen at h
  split at h
  · exact withPayload_hasRecord h fun hfit => ⟨hfit, rfl⟩
  · cases h

theorem decodeChkverify_hasRecord {bs : List Byte} {i : Instr} (h : decodeChkverify bs = .ok i) :
    HasRecord .op (3 :: bs) i := by
  unfold decodeChkverify at h
  split at h
  · exact withPayload_hasRecord h fun hfit => ⟨hfit, rfl⟩
  · cases h

theorem decodeEncode_hasRecord {bs : List Byte} {i : Instr} (h : decodeEncode bs = .ok i) : HasRecord .op (4 :: bs) i := by
  unfold decodeEncode at h
  split at h
  · exact withPayload_hasRecord h fun hfit => ⟨hfit, rfl⟩
  · cases h

theorem decodeExecute_hasRecord {bs : List Byte} {i : Instr} (h : decodeExecute bs = .ok i) : HasRecord .op (6 :: bs) i := by
  unfold decodeExecute at h
  split at h <;> cases h
  exact ⟨rfl, rfl⟩

theorem decodeErrlookup_hasRecord {bs : List Byte} {i : Instr} (h : decodeErrlookup bs = .ok i) :
    HasRecord .op (10 :: bs) i := by
  unfold decodeErrlookup at h
  split at h <;> cases h
  exact ⟨rfl, rfl⟩

theorem decodeMeasdec_hasRecord {bs : List Byte} {i : Instr} (h : decodeMeasdec bs = .ok i) :
    HasRecord .op (12 :: bs) i := by
  unfold decodeMeasdec at h
  split at h
  · next ts p hread =>
    obtain rfl := readNat_eq_some_iff.1 hread
    exact withPayload_hasRecord h fun hfit => ⟨hfit, rfl⟩
  · cases h

theorem cfgNat_hasRecord {w : Nat → CfgWrite} {r : Byte} {bs : List Byte} {i : Instr} (h : cfgNat w bs = .ok i)
    (hw : ∀ n, cfgBytes (w n) = r :: writeNat n) : HasRecord .op (8 :: r :: bs) i := by
  unfold cfgNat at h
  split at h
  · next n hread =>
    cases h
    obtain rfl : bs = writeNat n := by simpa using readNat_eq_some_iff.1 hread
    exact ⟨rfl, by rw [encode, hw]⟩
  all_goals cases h

theorem cfgByte_hasRecord {w : Byte → CfgWrite} {r : Byte} {bs : List Byte} {i : Instr} (h : cfgByte w bs = .ok i)
    (hw : ∀ v, cfgBytes (w v) = [r, v]) : HasRecord .op (8 :: r :: bs) i := by
  unfold cfgByte at h
  split at h <;> cases h
  exact ⟨rfl, by rw [encode, hw]⟩

theorem cfgDecsel_hasRecord {bs : List Byte} {i : Instr} (h : cfgDecsel bs = .ok i) : HasRecord .op (8 :: 5 :: bs) i := by
  unfold cfgDecsel at h
  split at h
  · split_ifs at h with hj h0 h1 <;> cases h
    · exact ⟨rfl, by simp [encode, cfgBytes, decoderBit, h0]⟩
    · exact ⟨rfl, by simp [encode, cfgBytes, decoderBit, h1]⟩
  all_goals cases h

theorem decodeCfg_hasRecord {bs : List Byte} {i : Instr} (h : decodeCfg bs = .ok i) : HasRecord .op (8 :: bs) i := by
  unfold decodeCfg at h
  split at h
  · cases h
  · next r bs =>
    split_ifs at h with h0 h1 h2 h3 h4 h5 <;> subst r
    · exact cfgByte_hasRecord h fun _ => rfl
    · exact cfgNat_hasRecord h fun _ => rfl
    · exact cfgNat_hasRecord h fun _ => rfl
    · exact cfgNat_hasRecord h fun _ => rfl
    · exact cfgByte_hasRecord h fun _ => rfl
    · exact cfgDecsel_hasRecord h

theorem decodeOp_hasRecord {bs : List Byte} {i : Instr} (h : decodeOp bs = .ok i) : HasRecord .op bs i := by
  unfold decodeOp at h
  split at h
  · cases h
  · next sel bs =>
    have selector {k : Nat} (hk : sel.toNat = k) : sel = BitVec.ofNat 8 k := by rw [← hk, BitVec.ofNat_toNat]; simp
    split at h
    case h_17 => cases h
    all_goals obtain rfl := selector ‹sel.toNat = _›
    case h_1 | h_2 | h_15 =>
      cases h
      exact ⟨rfl, rfl⟩
    case h_6 | h_8 | h_10 | h_14 | h_16 => exact bare_hasRecord h ⟨rfl, rfl⟩
    case h_3 => exact decodeChkgen_hasRecord h
    case h_4 => exact decodeChkverify_hasRecord h
    case h_5 => exact decodeEncode_hasRecord h
    case h_7 => exact decodeExecute_hasRecord h
    case h_9 => exact decodeCfg_hasRecord h
    case h_11 => exact decodeErrlookup_hasRecord h
    case h_12 => exact withPayload_hasRecord h fun hfit => ⟨hfit, rfl⟩
    case h_13 => exact decodeMeasdec_hasRecord h

/-- Settles O3: the inversion of each format's decoder. -/
theorem encodeOfDecode : Obligations.EncodeOfDecode := by
  intro f bs i h
  cases f with
  | req => exact decodeReq_hasRecord h
  | esc => exact decodeEsc_hasRecord h
  | delim => exact decodeDelim_hasRecord h
  | status => exact decodeStatus_hasRecord h
  | op => exact decodeOp_hasRecord h

/-! ### Words of the opcode table -/

/-- Settles O1: each word is evaluated. -/
theorem tableWordsDecode : Obligations.TableWordsDecode := by
  unfold Obligations.TableWordsDecode
  decide

end Sys2Proof

namespace Sys2Proof.Machine

open Sys2Proof

/-! ### The rule of each decode state (42_frame_codec.md R165 to R171) -/

theorem decodeByte_marker_hunt {d : DecRegs} (h : d.decState = .hunt) (ea ec : Byte) :
    decodeByte ea ec Config.MARKER d = ({ d with decState := .addr }, none) := by
  simp [decodeByte, h]

theorem decodeByte_addr_mismatch {d : DecRegs} (h : d.decState = .addr) {ea b : Byte} (hb : b ≠ ea) (ec : Byte) :
    decodeByte ea ec b d = decEnd { d with rxAddr := b } (mismatch .address .addr ea b) := by
  simp [decodeByte, h, hb]

theorem decodeByte_status {d : DecRegs} (h : d.decState = .status) (ea ec b : Byte) :
    decodeByte ea ec b d = ({ d with rxStatus := b, decState := if b = 0x00 then .body else .drain }, none) := by
  simp [decodeByte, h]

theorem decodeByte_marker_drain {d : DecRegs} (h : d.decState = .drain) (ea ec : Byte) :
    decodeByte ea ec Config.MARKER d = decEnd d (deviceFailure d.rxStatus) := by
  simp [decodeByte, h]

theorem decodeByte_body {d : DecRegs} (h : d.decState = .body) {b : Byte} (hb : b ≠ Config.MARKER) (ea ec : Byte) :
    decodeByte ea ec b d = (feed b d, none) := by
  simp [decodeByte, h, hb]

/-! ### A byte of the wire in a running decode -/

/-- A byte that does not decide the decode moves the decode registers alone. -/
theorem wireByte_goes_on {s : State} {b : Byte} {d : DecRegs} (hawait : s.txn.tmState = .await)
    (hon : s.dec.decState ≠ .off) (h : decodeByte s.txn.expAddr s.txn.expCmd b s.dec = (d, none)) :
    wireByte b s = s.setDec d :=
  (wireByte_decoding hawait hon b).trans (receiveAnswer_none h)

/-- The decode registers are not among what a failure writes, but for DEC_STATE. -/
theorem FailureTaken.of_setDec {f : FailRec} {target : TmState} {s t : State} {d : DecRegs}
    (h : FailureTaken f target (s.setDec d) t) : FailureTaken f target s t :=
  { h with }

/-- A byte that ends the decode in a failure has that failure taken. -/
theorem wireByte_fails {s : State} {b : Byte} {d : DecRegs} {f : FailRec} (hawait : s.txn.tmState = .await)
    (hon : s.dec.decState ≠ .off) (h : decodeByte s.txn.expAddr s.txn.expCmd b s.dec = decEnd d (.failed f)) :
    (wireByte b s).dec = { d with decState := .off } ∧
      FailureTaken f (failureTarget f.kind s.txn.attRem) s (wireByte b s) := by
  rw [wireByte_decoding hawait hon, receiveAnswer_some (a := .byte b) h]
  have htaken := takeFailure_taken f (s.setDec { d with decState := .off })
  exact ⟨takeFailure_dec f _, htaken.of_setDec⟩

/-- Settles O27: the rule of each decode state at the marker, carried to the state by what a byte of the wire does. -/
theorem markerRecognisedByValue : Obligations.MarkerRecognisedByValue := by
  intro s hawait
  refine ⟨fun hst => ?_, fun hst haddr => ?_, fun hst => ?_, fun hst => ?_⟩
  all_goals have hon : s.dec.decState ≠ .off := by simp [hst]
  · exact congrArg _ (wireByte_goes_on hawait hon (decodeByte_marker_hunt hst _ _))
  · exact ⟨_, rfl, wireByte_fails hawait hon (decodeByte_addr_mismatch hst haddr.symm _)⟩
  · exact congrArg _ (wireByte_goes_on hawait hon (decodeByte_status hst _ _ _))
  · exact ⟨_, rfl, wireByte_fails hawait hon (decodeByte_marker_drain hst _ _)⟩

/-- Settles O28: every status row is `wireByte` of its code, and the rule of D_STATUS tests the code for zero. -/
theorem statusRowsRouteDecode : Obligations.StatusRowsRouteDecode := by
  intro s hawait hst
  have byte (b : Byte) : wireByte b s =
      s.setDec { s.dec with rxStatus := b, decState := if b = 0x00 then .body else .drain } :=
    wireByte_goes_on hawait (by simp [hst]) (decodeByte_status hst _ _ b)
  refine ⟨congrArg _ (byte 0x00), fun i code hrow => ?_, fun code hwf => ?_⟩
  · simp only [List.mem_cons, Prod.mk.injEq, List.not_mem_nil, or_false] at hrow
    obtain ⟨rfl, rfl⟩ | ⟨rfl, rfl⟩ | ⟨rfl, rfl⟩ | ⟨rfl, rfl⟩ | ⟨rfl, rfl⟩ | ⟨rfl, rfl⟩ := hrow
    all_goals exact congrArg _ (byte _)
  · have hne : code ≠ 0x00 := by
      rintro rfl
      cases hwf
    have hcode := byte code
    rw [if_neg hne] at hcode
    exact congrArg _ hcode

/-! ### An escape pair in a region (R94; 40_stuffing.md R137) -/

/-- In the region every byte but the marker goes through the streaming unstuffer. -/
theorem wireByte_body {s : State} {b : Byte} (hawait : s.txn.tmState = .await) (hbody : s.dec.decState = .body)
    (hb : b ≠ Config.MARKER) : wireByte b s = s.setDec (feed b s.dec) :=
  wireByte_goes_on hawait (by simp [hbody]) (decodeByte_body hbody hb _ _)

theorem unesc_ne_marker {c v : Byte} (h : unesc c = some v) : c ≠ Config.MARKER := by
  rintro rfl
  cases h

/-- The code after its introducer pushes the byte the pair stands for. -/
theorem wireByte_code {s : State} {c v : Byte} (hawait : s.txn.tmState = .await) (hbody : s.dec.decState = .body)
    (hpend : s.dec.escPend = true) (hc : unesc c = some v) :
    wireByte c s = s.setDec (push v { s.dec with escPend := false }) := by
  rw [wireByte_body hawait hbody (unesc_ne_marker hc), feed_code hc hpend]

/-- The introducer only sets ESC_PEND, so both readings of an escape row end with the code after it (log 8). -/
theorem wireEscape_body {s : State} {c v : Byte} (hawait : s.txn.tmState = .await) (hbody : s.dec.decState = .body)
    (hc : unesc c = some v) : wireEscape c s = s.setDec (push v { s.dec with escPend := false }) := by
  have hdec : s.decoding = true := by simp [State.decoding, hawait, hbody]
  cases hpend : s.dec.escPend with
  | true =>
    rw [wireEscape, if_pos hdec, if_pos ⟨hbody, hpend⟩]
    exact wireByte_code hawait hbody hpend hc
  | false =>
    have hintro : wireByte Config.ESC s = s.setDec { s.dec with escPend := true } := by
      rw [wireByte_body hawait hbody (by decide), feed_introducer hpend]
    rw [wireEscape, if_pos hdec, if_neg (by simp [hpend]), hintro]
    exact (if_pos hdec).trans (wireByte_code hawait hbody rfl hc)

/-- Settles O26: the code of each row stands for the row's byte. -/
theorem escapePairStandsForReservedByte : Obligations.EscapePairStandsForReservedByte := by
  intro s hawait hbody i v hrow
  have pair {c v : Byte} (hc : unesc c = some v) : Host.Outcome.next (φ := Fault) (ρ := Refusal) (wireEscape c s) =
      .next (s.setDec (push v { s.dec with escPend := false })) :=
    congrArg _ (wireEscape_body hawait hbody hc)
  simp only [List.mem_cons, Prod.mk.injEq, List.not_mem_nil, or_false] at hrow
  obtain ⟨rfl, rfl⟩ | ⟨rfl, rfl⟩ | ⟨rfl, rfl⟩ | ⟨rfl, rfl⟩ := hrow
  all_goals exact pair rfl

end Sys2Proof.Machine
end

section
/-! PROOFS. 40_stuffing.md R132 to R138: what STUFF and UNSTUFF answer, the shape of what STUFF emits, the round trip, and
the streaming form of UNSTUFF. -/

namespace Sys2Proof.Machine

open Sys2Proof

/-! ### STUFF (R132, R133) -/

/-- The bytes STUFF emits for one input byte, written with the pairs of 30_encoding.md R94. -/
theorem stuff_singleton (b : Byte) :
    stuff [b] =
      if b = 0x7E then [0x7D, 0x5E]
      else if b = 0x7D then [0x7D, 0x5D]
      else if b = 0x11 then [0x7D, 0x31]
      else if b = 0x13 then [0x7D, 0x33]
      else [b] := by
  simp only [stuff, esc]
  split_ifs <;> rfl

/-- STUFF holds no state between input bytes (R134). -/
theorem stuff_eq_flatMap (x : List Byte) : stuff x = x.flatMap fun b => stuff [b] := by
  induction x with
  | nil => rfl
  | cons b x ih => rw [List.flatMap_cons, ← ih, ← stuff_append, List.singleton_append]

/-- Settles O4: STUFF works byte by byte, and on one byte it is the table of R94. -/
theorem stuffReplacesReservedBytes : Obligations.StuffReplacesReservedBytes := by
  intro x s
  simp only [← stuff_singleton, ← stuff_eq_flatMap]
  rfl

theorem isReserved_of_esc {b c : Byte} (h : esc b = some c) : isReserved b = true :=
  Bool.eq_true_of_not_eq_false fun hres => by simp [(esc_eq_none_iff b).2 hres] at h

theorem stuff_length (x : List Byte) : (stuff x).length = x.length + x.countP isReserved := by
  induction x with
  | nil => rfl
  | cons b x ih =>
    cases h : esc b with
    | none =>
      have hb : ¬ isReserved b = true := Bool.not_eq_true _ ▸ (esc_eq_none_iff b).1 h
      rw [stuff_plain h, List.countP_cons_of_neg hb, List.length_cons, List.length_cons, ih]
      omega
    | some c =>
      rw [stuff_reserved h, List.countP_cons_of_pos (isReserved_of_esc h), List.length_cons, List.length_cons,
        List.length_cons, ih]
      omega

/-- Of the reserved bytes STUFF emits the introducer alone. -/
theorem isReserved_of_mem_stuff {x : List Byte} {b : Byte} (hb : b ∈ stuff x) (hne : b ≠ Config.ESC) :
    isReserved b = false := by
  induction x with
  | nil => cases hb
  | cons a x ih =>
    cases h : esc a with
    | none =>
      rw [stuff_plain h, List.mem_cons] at hb
      obtain rfl | hb := hb
      · exact (esc_eq_none_iff b).1 h
      · exact ih hb
    | some c =>
      rw [stuff_reserved h, List.mem_cons, List.mem_cons] at hb
      obtain hb | rfl | hb := hb
      · exact absurd hb hne
      · exact (esc_code_not_reserved h).2
      · exact ih hb

/-- The introducer in the output of STUFF is the first byte of a pair. -/
theorem stuff_introducer_followed {x : List Byte} {n : Nat} (h : (stuff x)[n]? = some Config.ESC) :
    ∃ c, (stuff x)[n + 1]? = some c ∧ isEscCode c = true := by
  induction x generalizing n with
  | nil => cases h
  | cons b x ih =>
    cases hb : esc b with
    | none =>
      have hne : b ≠ Config.ESC := by rintro rfl; cases hb
      rw [stuff_plain hb] at h ⊢
      cases n with
      | zero => exact absurd (Option.some.inj h) hne
      | succ n => exact ih h
    | some c =>
      obtain ⟨hcode, hres⟩ := esc_code_not_reserved hb
      have hne : c ≠ Config.ESC := by rintro rfl; cases hres
      rw [stuff_reserved hb] at h ⊢
      match n with
      | 0 => exact ⟨c, rfl, hcode⟩
      | 1 => exact absurd (Option.some.inj h) hne
      | n + 2 => exact ih h

/-! ### The round trip (R138) -/

theorem unstuff_stuff (x : List Byte) : unstuff (stuff x) = some x := by
  induction x with
  | nil => exact unstuff_nil
  | cons b x ih =>
    cases h : esc b with
    | none =>
      have hb : b ≠ Config.ESC := by rintro rfl; cases h
      rw [stuff_plain h, unstuff_plain hb, ih, Option.map_some]
    | some c => rw [stuff_reserved h, unstuff_pair (unesc_esc h), ih, Option.map_some]

theorem stuff_injective : Function.Injective stuff := fun x y h =>
  Option.some.inj (by rw [← unstuff_stuff x, h, unstuff_stuff])

/-- Settles O7: the round trip, and from it the converse on the image of STUFF. -/
theorem unstuffStuffRoundTrip : Obligations.UnstuffStuffRoundTrip := by
  refine ⟨unstuff_stuff, fun y z hy => ⟨fun h => ⟨z, h.symm⟩, ?_⟩⟩
  rintro ⟨x, rfl⟩
  rw [unstuff_stuff] at hy
  rw [Option.some.inj hy]

/-- Settles O5: one lemma for each item of R133. -/
theorem stuffedOutputShape : Obligations.StuffedOutputShape := by
  refine ⟨fun x => ?_, stuff_append, fun x => ?_, fun x y h => stuff_injective h⟩
  · have hlen := stuff_length x
    have hcount : x.countP isReserved ≤ x.length := List.countP_le_length
    omega
  · have hout (b : Byte) (hne : b ≠ Config.ESC) (hres : isReserved b = true) : b ∉ stuff x := fun hb => by
      rw [isReserved_of_mem_stuff hb hne] at hres
      cases hres
    exact ⟨hout _ (by decide) rfl, hout _ (by decide) rfl, hout _ (by decide) rfl, fun n => stuff_introducer_followed⟩

/-! ### What unstuffs, taken apart (R136) -/

theorem unesc_injective {k k' v : Byte} (h : unesc k = some v) (h' : unesc k' = some v) : k = k' :=
  Option.some.inj (((unesc_eq_some_iff k v).1 h).symm.trans ((unesc_eq_some_iff k' v).1 h'))

theorem unstuff_plain_inv {b : Byte} (hb : b ≠ Config.ESC) {s t : List Byte} (h : unstuff (b :: s) = some t) :
    ∃ t', unstuff s = some t' ∧ t = b :: t' := by
  rw [unstuff_plain hb] at h
  obtain ⟨t', ht', rfl⟩ := Option.map_eq_some_iff.1 h
  exact ⟨t', ht', rfl⟩

theorem unstuff_pair_inv {k v : Byte} (hk : unesc k = some v) {s t : List Byte}
    (h : unstuff (Config.ESC :: k :: s) = some t) : ∃ t', unstuff s = some t' ∧ t = v :: t' := by
  rw [unstuff_pair hk] at h
  obtain ⟨t', ht', rfl⟩ := Option.map_eq_some_iff.1 h
  exact ⟨t', ht', rfl⟩

/-- An introducer in a sequence that unstuffs has its code behind it. -/
theorem unstuff_esc_inv {r t : List Byte} (h : unstuff (Config.ESC :: r) = some t) :
    ∃ k v s t', r = k :: s ∧ unesc k = some v ∧ unstuff s = some t' ∧ t = v :: t' := by
  cases r with
  | nil => simp at h
  | cons k s =>
    cases hk : unesc k with
    | none => simp [unstuff_bad_pair hk] at h
    | some v =>
      obtain ⟨t', ht', ht⟩ := unstuff_pair_inv hk h
      exact ⟨k, v, s, t', rfl, hk, ht', ht⟩

/-- What unstuffs in front does not change how the rest unstuffs. -/
theorem unstuff_append {a w : List Byte} (h : unstuff a = some w) (r : List Byte) :
    unstuff (a ++ r) = (unstuff r).map (w ++ ·) := by
  induction a using unstuff_induction generalizing w with
  | nil => cases h; simp
  | last => simp at h
  | pair k v s hk ih =>
    obtain ⟨w', hw', rfl⟩ := unstuff_pair_inv hk h
    simp [unstuff_pair hk, ih hw', Function.comp_def]
  | bad k s hk => simp [unstuff_bad_pair hk] at h
  | plain b s hb ih =>
    obtain ⟨w', hw', rfl⟩ := unstuff_plain_inv hb h
    simp [unstuff_plain hb, ih hw', Function.comp_def]

theorem unstuff_append_inv {a r w u : List Byte} (ha : unstuff a = some w) (h : unstuff (a ++ r) = some u) :
    ∃ t, unstuff r = some t ∧ u = w ++ t := by
  rw [unstuff_append ha] at h
  obtain ⟨t, ht, rfl⟩ := Option.map_eq_some_iff.1 h
  exact ⟨t, ht, rfl⟩

/-- A part of a sequence that unstuffs does so itself, unless it ends between an introducer and its code. -/
theorem unstuff_of_append {a r u : List Byte} (h : unstuff (a ++ r) = some u) :
    (∃ w, unstuff a = some w) ∨ ∃ q w, a = q ++ [Config.ESC] ∧ unstuff q = some w := by
  induction a using unstuff_induction generalizing u with
  | nil => exact .inl ⟨[], unstuff_nil⟩
  | last => exact .inr ⟨[], [], rfl, unstuff_nil⟩
  | pair k v s hk ih =>
    obtain ⟨_, _, _, t, hs, -, ht, -⟩ := unstuff_esc_inv h
    cases hs
    obtain ⟨w, hw⟩ | ⟨q, w, rfl, hw⟩ := ih ht
    · exact .inl ⟨v :: w, by rw [unstuff_pair hk, hw, Option.map_some]⟩
    · exact .inr ⟨Config.ESC :: k :: q, v :: w, rfl, by rw [unstuff_pair hk, hw, Option.map_some]⟩
  | bad k s hk =>
    rw [List.cons_append, List.cons_append, unstuff_bad_pair hk] at h
    cases h
  | plain b s hb ih =>
    obtain ⟨t, ht, -⟩ := unstuff_plain_inv hb h
    obtain ⟨w, hw⟩ | ⟨q, w, rfl, hw⟩ := ih ht
    · exact .inl ⟨b :: w, by rw [unstuff_plain hb, hw, Option.map_some]⟩
    · exact .inr ⟨b :: q, b :: w, rfl, by rw [unstuff_plain hb, hw, Option.map_some]⟩

/-! ### The answers of UNSTUFF (R136) -/

theorem exec_unstuff_bytes_iff (y x : List Byte) (s : State) :
    exec (.unstuff y) s = .next { s with answer := some (.bytes x) } ↔ unstuff y = some x := by
  change execUnstuff y s = _ ↔ _
  unfold execUnstuff
  cases unstuff y <;> simp [State.answerWith]

theorem exec_unstuff_malformed_iff (y : List Byte) (s : State) :
    exec (.unstuff y) s = .next { s with answer := some .malformedEscape } ↔ unstuff y = none := by
  change execUnstuff y s = _ ↔ _
  unfold execUnstuff
  cases unstuff y <;> simp [State.answerWith]

/-- The two cases of MalformedEscape: an introducer that comes last, or in front of a byte that is no code. -/
theorem unstuff_esc_eq_none {r : List Byte} (h : r = [] ∨ ∃ c s, r = c :: s ∧ unesc c = none) :
    unstuff (Config.ESC :: r) = none := by
  obtain rfl | ⟨c, s, rfl, hc⟩ := h
  · exact unstuff_esc_last
  · exact unstuff_bad_pair hc s

/-- A sequence that does not unstuff is decided by the first introducer without a code. -/
theorem unstuff_eq_none_iff (y : List Byte) :
    unstuff y = none ↔ ∃ a r, y = a ++ Config.ESC :: r ∧ unstuff a ≠ none ∧
      (r = [] ∨ ∃ c s, r = c :: s ∧ unesc c = none) := by
  constructor
  · intro h
    induction y using unstuff_induction with
    | nil => simp at h
    | last => exact ⟨[], [], rfl, by simp, .inl rfl⟩
    | pair c v s hc ih =>
      obtain ⟨a, r, rfl, ha, hr⟩ := ih (by simpa [unstuff_pair hc] using h)
      exact ⟨Config.ESC :: c :: a, r, rfl, by simpa [unstuff_pair hc] using ha, hr⟩
    | bad c s hc => exact ⟨[], c :: s, rfl, by simp, .inr ⟨c, s, rfl, hc⟩⟩
    | plain b s hb ih =>
      obtain ⟨a, r, rfl, ha, hr⟩ := ih (by simpa [unstuff_plain hb] using h)
      exact ⟨b :: a, r, rfl, by simpa [unstuff_plain hb] using ha, hr⟩
  · rintro ⟨a, r, rfl, ha, hr⟩
    obtain ⟨w, hw⟩ := Option.ne_none_iff_exists'.1 ha
    rw [unstuff_append hw, unstuff_esc_eq_none hr, Option.map_none]

/-- A segment is a byte other than the introducer, or an introducer and the code of the byte it stands for. -/
theorem escapeSegment_iff (g : List Byte × Byte) :
    EscapeSegment g ↔ (g.1 = [g.2] ∧ g.2 ≠ Config.ESC) ∨ ∃ c, unesc c = some g.2 ∧ g.1 = [Config.ESC, c] := by
  obtain ⟨l, v⟩ := g
  refine or_congr Iff.rfl ?_
  simp only [unesc_eq_some_iff, esc_eq_some_iff, List.mem_cons, Prod.mk.injEq, List.not_mem_nil, or_false]
  constructor
  · rintro (⟨rfl, rfl⟩ | ⟨rfl, rfl⟩ | ⟨rfl, rfl⟩ | ⟨rfl, rfl⟩)
    all_goals exact ⟨_, by decide, rfl⟩
  · rintro ⟨c, ⟨rfl, rfl⟩ | ⟨rfl, rfl⟩ | ⟨rfl, rfl⟩ | ⟨rfl, rfl⟩, rfl⟩
    all_goals decide

/-- `y` is cut into segments that stand for `x` (R136). -/
def CutsInto (y x : List Byte) : Prop :=
  ∃ segs : List (List Byte × Byte), (∀ g ∈ segs, EscapeSegment g) ∧ y = segs.flatMap (·.1) ∧ x = segs.map (·.2)

theorem CutsInto.cons {y x l : List Byte} {v : Byte} (h : CutsInto y x) (hg : EscapeSegment (l, v)) :
    CutsInto (l ++ y) (v :: x) := by
  obtain ⟨segs, hsegs, rfl, rfl⟩ := h
  exact ⟨(l, v) :: segs, List.forall_mem_cons.2 ⟨hg, hsegs⟩, rfl, rfl⟩

theorem unstuff_segment {g : List Byte × Byte} (hg : EscapeSegment g) (s : List Byte) :
    unstuff (g.1 ++ s) = (unstuff s).map (g.2 :: ·) := by
  obtain ⟨hl, hv⟩ | ⟨c, hc, hl⟩ := (escapeSegment_iff g).1 hg
  · rw [hl]; exact unstuff_plain hv s
  · rw [hl]; exact unstuff_pair hc s

theorem unstuff_eq_some_iff (y x : List Byte) : unstuff y = some x ↔ CutsInto y x := by
  constructor
  · intro h
    induction y using unstuff_induction generalizing x with
    | nil => cases h; exact ⟨[], by simp, rfl, rfl⟩
    | last => simp at h
    | pair c v s hc ih =>
      obtain ⟨w, hw, rfl⟩ := unstuff_pair_inv hc h
      exact (ih w hw).cons ((escapeSegment_iff _).2 (.inr ⟨c, hc, rfl⟩))
    | bad c s hc => simp [unstuff_bad_pair hc] at h
    | plain b s hb ih =>
      obtain ⟨w, hw, rfl⟩ := unstuff_plain_inv hb h
      exact (ih w hw).cons (l := [b]) ((escapeSegment_iff _).2 (.inl ⟨rfl, hb⟩))
  · rintro ⟨segs, hsegs, rfl, rfl⟩
    induction segs with
    | nil => exact unstuff_nil
    | cons g segs ih =>
      obtain ⟨hg, hrest⟩ := List.forall_mem_cons.1 hsegs
      rw [List.flatMap_cons, unstuff_segment hg, ih hrest, Option.map_some, List.map_cons]

theorem eq_nil_of_unstuff_nil {y : List Byte} (h : unstuff y = some []) : y = [] := by
  obtain ⟨segs, -, rfl, hx⟩ := (unstuff_eq_some_iff y []).1 h
  rw [List.map_eq_nil_iff.1 hx.symm, List.flatMap_nil]

/-- No cut at all is the same as failing to unstuff: every cut stands for some sequence. -/
theorem unstuff_eq_none_iff_no_cut (y : List Byte) :
    unstuff y = none ↔ ¬ ∃ segs : List (List Byte × Byte), (∀ g ∈ segs, EscapeSegment g) ∧ y = segs.flatMap (·.1) := by
  rw [Option.eq_none_iff_forall_ne_some]
  constructor
  · rintro h ⟨segs, hsegs, hy⟩
    exact h _ ((unstuff_eq_some_iff y _).2 ⟨segs, hsegs, hy, rfl⟩)
  · intro h x hx
    obtain ⟨segs, hsegs, hy, -⟩ := (unstuff_eq_some_iff y x).1 hx
    exact h ⟨segs, hsegs, hy⟩

theorem not_mem_escCodes_iff (c : Byte) : c ∉ [(0x5E : Byte), 0x5D, 0x31, 0x33] ↔ unesc c = none := by
  rw [unesc_eq_none_iff]
  simp [isEscCode, and_assoc]

/-- Settles O6: the answers of the unit are the two results of `unstuff`, each characterised above. -/
theorem unstuffAnswers : Obligations.UnstuffAnswers := by
  intro y s
  refine ⟨fun x => (exec_unstuff_bytes_iff y x s).trans (unstuff_eq_some_iff y x),
    (exec_unstuff_malformed_iff y s).trans (unstuff_eq_none_iff_no_cut y), ?_⟩
  simp only [not_mem_escCodes_iff]
  exact (exec_unstuff_malformed_iff y s).trans (unstuff_eq_none_iff y)

/-! ### The streaming form of UNSTUFF (R137) -/

theorem Holds.closeRegion {d : DecRegs} {u : List Byte} (h : Holds d u) : closeRegion d = d := by
  simp [Machine.closeRegion, h.pend]

theorem holds_of_cleared {d : DecRegs} (hcnt : d.rxCnt = 0) (hbuf : d.rxBuf = []) (hpend : d.escPend = false)
    (hsound : d.malformed = false) : Holds d [] :=
  ⟨hbuf, hcnt, hpend, hsound⟩

/-- The registers at the end of a region that was fed into cleared registers: UNSTUFF of the region, or MALFORMED. -/
theorem region_holds {d : DecRegs} (h : Holds d []) (raw : List Byte) :
    (∀ u, unstuff raw = some u → Holds (closeRegion (raw.foldl (fun d b => feed b d) d)) u) ∧
    (unstuff raw = none → (closeRegion (raw.foldl (fun d b => feed b d) d)).malformed = true) := by
  obtain ⟨hsome, hnone⟩ := foldl_feed_spec raw d [] h
  refine ⟨fun u hu => ?_, hnone⟩
  have hfold : Holds (raw.foldl (fun d b => feed b d) d) u := hsome u hu
  rw [hfold.closeRegion]
  exact hfold

theorem region_header (raw : List Byte) (d : DecRegs) :
    let e := closeRegion (raw.foldl (fun d b => feed b d) d)
    e.decState = d.decState ∧ e.rxAddr = d.rxAddr ∧ e.rxCmd = d.rxCmd ∧ e.rxStatus = d.rxStatus := by
  obtain ⟨hst, haddr, hcmd, hstatus⟩ := foldl_feed_header raw d
  obtain ⟨cst, caddr, ccmd, cstatus, -, -⟩ := closeRegion_header (raw.foldl (fun d b => feed b d) d)
  exact ⟨cst.trans hst, caddr.trans haddr, ccmd.trans hcmd, cstatus.trans hstatus⟩

/-- Settles O8: the registers hold what UNSTUFF gives, as far as they reach. -/
theorem streamingUnstufferAgrees : Obligations.StreamingUnstufferAgrees := by
  intro raw d hcnt hbuf hpend hsound
  obtain ⟨hsome, hnone⟩ := region_holds (holds_of_cleared hcnt hbuf hpend hsound) raw
  refine ⟨⟨fun hmal => ?_, hnone⟩, fun u hu => ?_, region_header raw d⟩
  · refine Option.eq_none_iff_forall_ne_some.2 fun u hu => ?_
    rw [(hsome u hu).sound] at hmal
    cases hmal
  · have h := hsome u hu
    exact ⟨h.cnt, h.buf, h.pend⟩

end Sys2Proof.Machine
end

section
/-! PROOFS. 40_stuffing.md R139: the region a decode accepts, and what one changed byte of it does. -/

namespace Sys2Proof.Machine

open Sys2Proof

/-! ### The region a decode accepts (42_frame_codec.md R172, R173) -/

/-- The unstuffed region of a validated frame with address `a` and command `c`: the length byte, as many payload bytes as it
declares, and the checksum. -/
def SoundRegion (a c : Byte) (u : List Byte) : Prop :=
  ∃ (l : Byte) (p : List Byte) (k : Byte), u = l :: (p ++ [k]) ∧ p.length = l.toNat ∧ chkverify a c l p k = none

theorem soundRegion_of_payload {p : List Byte} (h : p.length ≤ 255) (a c : Byte) :
    SoundRegion a c ([BitVec.ofNat 8 p.length] ++ p ++ [checksum [a, c, BitVec.ofNat 8 p.length] p]) :=
  ⟨_, p, _, rfl, (lengthByte_toNat h).symm, (chkverify_eq_none_iff _ _ _ _ _).2 rfl⟩

/-- The length check: the first byte declares the number of the others. -/
theorem SoundRegion.declares {a c x : Byte} {t : List Byte} (h : SoundRegion a c (x :: t)) : t.length = x.toNat + 1 := by
  obtain ⟨l, p, k, hu, hlen, -⟩ := h
  obtain ⟨rfl, rfl⟩ := List.cons.inj hu
  simp [hlen]

/-- The checksum check in its sum form (41_checksum.md R153). -/
theorem SoundRegion.total {a c : Byte} {u : List Byte} (h : SoundRegion a c u) :
    (a.toNat + c.toNat + sumBytes u) % 256 = 255 := by
  obtain ⟨l, p, k, rfl, -, hk⟩ := h
  have hsum := (eq_checksum_iff [a, c, l] p k).1 ((chkverify_eq_none_iff a c l p k).1 hk).symm
  simp only [sumBytes_cons, sumBytes_append, sumBytes_nil] at hsum ⊢
  omega

/-- Everything a region check that passes has found. -/
theorem validateRegion_eq_frame {d : DecRegs} {f : Frame} (h : validateRegion d = .frame f) :
    d.malformed = false ∧ d.rxCnt = (byteAt d.rxBuf 0).toNat + 2 ∧
      chkverify d.rxAddr d.rxCmd (byteAt d.rxBuf 0) ((d.rxBuf.drop 1).take (byteAt d.rxBuf 0).toNat)
        (byteAt d.rxBuf (1 + (byteAt d.rxBuf 0).toNat)) = none ∧
      f = { address := d.rxAddr, command := d.rxCmd, status := 0x00
            payload := (d.rxBuf.drop 1).take (byteAt d.rxBuf 0).toNat } := by
  unfold validateRegion at h
  by_cases hmal : d.malformed = true
  · rw [if_pos hmal] at h
    cases h
  by_cases hshort : d.rxCnt < 2
  · rw [if_neg hmal, if_pos hshort] at h
    cases h
  by_cases hlen : (byteAt d.rxBuf 0).toNat ≠ d.rxCnt - 2
  · rw [if_neg hmal, if_neg hshort, if_pos hlen] at h
    cases h
  rw [if_neg hmal, if_neg hshort, if_neg hlen] at h
  have hsound : d.malformed = false := Bool.eq_false_of_not_eq_true hmal
  dsimp only at h
  cases hk : chkverify d.rxAddr d.rxCmd (byteAt d.rxBuf 0) ((d.rxBuf.drop 1).take (byteAt d.rxBuf 0).toNat)
      (byteAt d.rxBuf (1 + (byteAt d.rxBuf 0).toNat)) with
  | some e =>
    rw [hk] at h
    cases h
  | none =>
    rw [hk] at h
    exact ⟨hsound, by omega, rfl, (DecResult.frame.inj h).symm⟩

/-- Where the registers hold `u` and their check passes, `u` fits RXBUF and is a sound region. -/
theorem Holds.soundRegion {d : DecRegs} {u : List Byte} {f : Frame} (h : Holds d u) (hf : validateRegion d = .frame f) :
    SoundRegion d.rxAddr d.rxCmd u := by
  obtain ⟨-, hcnt, hk, -⟩ := validateRegion_eq_frame hf
  have hbyte := (byteAt d.rxBuf 0).isLt
  have hcount := h.cnt
  have hbuf : d.rxBuf = u := h.buf.trans (List.take_of_length_le (by omega))
  rw [hbuf] at hcnt hk hbyte
  cases u with
  | nil => simp only [List.length_nil] at hcount; omega
  | cons l t =>
    have hl : byteAt (l :: t) 0 = l := rfl
    have hlen : t.length = l.toNat + 1 := by
      simp only [hl, List.length_cons] at hcnt hcount hbyte
      omega
    have hlast : byteAt (l :: t) (1 + l.toNat) = t[l.toNat] := by simp [byteAt, Nat.add_comm 1, hlen]
    refine ⟨l, t.take l.toNat, _, ?_, by simp [hlen], hk⟩
    rw [hl, hlast, List.take_append_getElem, List.take_of_length_le hlen.le]

/-! ### The answers of a whole response (42_frame_codec.md R177) -/

/-- The decode registers in front of the region of a response whose header is the expected one. -/
def regionStart (ea ec : Byte) (n : Nat) : DecRegs :=
  { startDecode n with decState := .body, rxAddr := ea, rxCmd := ec, rxStatus := 0x00 }

theorem holds_regionStart (ea ec : Byte) (n : Nat) : Holds (regionStart ea ec n) [] := ⟨rfl, rfl, rfl, rfl⟩

theorem decodeAnswers_header (ea ec : Byte) (n : Nat) (as : List RxAnswer) :
    decodeAnswers ea ec (startDecode n) ([0x7E, ea, ec, 0x00].map .byte ++ as) =
      decodeAnswers ea ec (regionStart ea ec n) as := by
  simp [decodeAnswers, applyAnswer, decodeByte, startDecode, regionStart, Config.MARKER]

/-- In D_BODY the bytes up to the marker are the region, and the marker decides it. -/
theorem decodeAnswers_region {raw : List Byte} (hraw : Config.MARKER ∉ raw) {d : DecRegs} (hd : d.decState = .body)
    (ea ec : Byte) (as : List RxAnswer) :
    decodeAnswers ea ec d (raw.map .byte ++ .byte Config.MARKER :: as) =
      some (validateRegion (closeRegion (raw.foldl (fun d b => feed b d) d)), as) := by
  induction raw generalizing d with
  | nil => simp [decodeAnswers, applyAnswer, decodeByte, hd, decEnd]
  | cons b raw ih =>
    obtain ⟨hb, hraw⟩ := not_or.1 (mt List.mem_cons.2 hraw)
    have hstep : applyAnswer ea ec (.byte b) d = (feed b d, none) := decodeByte_body hd (Ne.symm hb) ea ec
    rw [List.map_cons, List.cons_append, decodeAnswers, hstep]
    exact ih hraw ((feed_header b d).1.trans hd)

/-- A response whose region ends at this marker decodes to a frame only if the region unstuffs to a sound one. -/
theorem soundRegion_of_decodeAnswers {ea ec : Byte} {n : Nat} {raw : List Byte} (hraw : Config.MARKER ∉ raw)
    {as rest : List RxAnswer} {f : Frame}
    (h : decodeAnswers ea ec (startDecode n) ([0x7E, ea, ec, 0x00].map .byte ++ (raw.map .byte ++ .byte Config.MARKER :: as)) =
      some (.frame f, rest)) : ∃ u, unstuff raw = some u ∧ SoundRegion ea ec u := by
  rw [decodeAnswers_header, decodeAnswers_region hraw rfl, Option.some.injEq, Prod.mk.injEq] at h
  obtain ⟨hsome, hnone⟩ := region_holds (holds_regionStart ea ec n) raw
  obtain ⟨-, haddr, hcmd, -⟩ := region_header raw (regionStart ea ec n)
  cases hu : unstuff raw with
  | none =>
    rw [(validateRegion_eq_frame h.1).1] at hnone
    cases hnone hu
  | some u =>
    have hsound := (hsome u hu).soundRegion h.1
    rw [haddr, hcmd] at hsound
    exact ⟨u, rfl, hsound⟩

/-! ### One changed byte (40_stuffing.md R139, 41_checksum.md R153) -/

/-- Two sound regions do not differ in one byte alone: their sums would differ. -/
theorem SoundRegion.eq_of_one_byte {a c v v' : Byte} {w t : List Byte} (h : SoundRegion a c (w ++ v :: t))
    (h' : SoundRegion a c (w ++ v' :: t)) : v = v' := by
  have hsum := h.total
  have hsum' := h'.total
  simp only [sumBytes_append, sumBytes_cons] at hsum hsum'
  apply BitVec.eq_of_toNat_eq
  omega

/-- Two sound regions with the same first byte have one length. -/
theorem SoundRegion.length_eq {a c x : Byte} {t t' : List Byte} (h : SoundRegion a c (x :: t))
    (h' : SoundRegion a c (x :: t')) : t.length = t'.length :=
  h.declares.trans h'.declares.symm

/-- An escape pair in place of a byte and the code behind it is detected: behind the length byte by the length check, and
on the length byte, which it would lower by one, by the sum, which would change by the code plus one. -/
theorem SoundRegion.not_of_pair {a c x k v : Byte} (hk : unesc k = some v) {w t : List Byte}
    (h : SoundRegion a c (w ++ x :: k :: t)) : ¬ SoundRegion a c (w ++ v :: t) := by
  intro h'
  cases w with
  | cons y w => simpa using h.length_eq h'
  | nil =>
    have hx := h.declares
    have hv := h'.declares
    have hcode : k ≠ 0xFF := by rintro rfl; cases hk
    have hsum := h.total
    have hsum' := h'.total
    simp only [List.nil_append, List.length_cons, sumBytes_cons] at hx hv hsum hsum'
    apply hcode
    apply BitVec.eq_of_toNat_eq
    have hk255 : (0xFF : Byte).toNat = 255 := rfl
    omega

theorem SoundRegion.not_append {a c : Byte} {w t : List Byte} (h : SoundRegion a c w) (ht : t ≠ []) :
    ¬ SoundRegion a c (w ++ t) := by
  intro h'
  cases w with
  | nil => obtain ⟨l, p, k, hu, -, -⟩ := h; cases hu
  | cons x w => exact ht (by simpa using h.length_eq h')

/-- A plain byte and the introducer in one place: the introducer makes a pair with the byte behind it. -/
theorem SoundRegion.not_of_introducer {a c x : Byte} (hx : x ≠ Config.ESC) {w r t t' : List Byte}
    (ht : unstuff (x :: r) = some t) (ht' : unstuff (Config.ESC :: r) = some t') (h : SoundRegion a c (w ++ t)) :
    ¬ SoundRegion a c (w ++ t') := by
  obtain ⟨k, v, s, t₀, rfl, hk, hs, rfl⟩ := unstuff_esc_inv ht'
  have hplain : k ≠ Config.ESC := by rintro rfl; cases hk
  obtain ⟨_, hr, rfl⟩ := unstuff_plain_inv hx ht
  rw [unstuff_plain hplain, hs, Option.map_some, Option.some.injEq] at hr
  subst hr
  exact h.not_of_pair hk

/-- Changing one byte behind a part that unstuffs. -/
theorem SoundRegion.not_of_segment_byte {a c b b' : Byte} (hne : b ≠ b') {w r t t' : List Byte}
    (ht : unstuff (b :: r) = some t) (ht' : unstuff (b' :: r) = some t') (h : SoundRegion a c (w ++ t)) :
    ¬ SoundRegion a c (w ++ t') := by
  intro h'
  by_cases hb : b = Config.ESC
  · subst hb
    exact h'.not_of_introducer hne.symm ht' ht h
  by_cases hb' : b' = Config.ESC
  · subst hb'
    exact h.not_of_introducer hne ht ht' h'
  obtain ⟨t₁, h₁, rfl⟩ := unstuff_plain_inv hb ht
  obtain ⟨t₂, h₂, rfl⟩ := unstuff_plain_inv hb' ht'
  obtain rfl : t₁ = t₂ := Option.some.inj (h₁.symm.trans h₂)
  exact hne (h.eq_of_one_byte h')

/-- Changing one byte behind an introducer. -/
theorem SoundRegion.not_of_code_byte {a c b b' : Byte} (hne : b ≠ b') {w r t t' : List Byte}
    (ht : unstuff (Config.ESC :: b :: r) = some t) (ht' : unstuff (Config.ESC :: b' :: r) = some t')
    (h : SoundRegion a c (w ++ t)) : ¬ SoundRegion a c (w ++ t') := by
  intro h'
  obtain ⟨k, v, s, t₁, hr, hk, h₁, rfl⟩ := unstuff_esc_inv ht
  obtain ⟨k', v', s', t₂, hr', hk', h₂, rfl⟩ := unstuff_esc_inv ht'
  obtain ⟨rfl, rfl⟩ := List.cons.inj hr
  obtain ⟨rfl, rfl⟩ := List.cons.inj hr'
  obtain rfl : t₁ = t₂ := Option.some.inj (h₁.symm.trans h₂)
  rw [h.eq_of_one_byte h'] at hk
  exact hne (unesc_injective hk hk')

/-- Of two raw regions that differ in one byte at most one unstuffs to a sound region. -/
theorem SoundRegion.not_of_changed_byte {a c b b' : Byte} (hne : b ≠ b') {pre post u u' : List Byte}
    (hu : unstuff (pre ++ b :: post) = some u) (hu' : unstuff (pre ++ b' :: post) = some u') (h : SoundRegion a c u) :
    ¬ SoundRegion a c u' := by
  obtain ⟨w, hw⟩ | ⟨q, w, rfl, hw⟩ := unstuff_of_append hu
  · obtain ⟨t, ht, rfl⟩ := unstuff_append_inv hw hu
    obtain ⟨t', ht', rfl⟩ := unstuff_append_inv hw hu'
    exact h.not_of_segment_byte hne ht ht'
  · rw [List.append_assoc] at hu hu'
    obtain ⟨t, ht, rfl⟩ := unstuff_append_inv hw hu
    obtain ⟨t', ht', rfl⟩ := unstuff_append_inv hw hu'
    exact h.not_of_code_byte hne ht ht'

/-- A sound region cut short is not sound: its first byte declares the longer one. -/
theorem SoundRegion.not_of_cut_short {a c b : Byte} {pre post u w : List Byte} (hu : unstuff (pre ++ b :: post) = some u)
    (hw : unstuff pre = some w) (h : SoundRegion a c u) : ¬ SoundRegion a c w := by
  obtain ⟨t, ht, rfl⟩ := unstuff_append_inv hw hu
  have hne : t ≠ [] := by
    rintro rfl
    cases eq_nil_of_unstuff_nil ht
  exact fun h' => h'.not_append hne h

/-- Settles O25: a frame would come from a sound region, which is the changed one, or where the changed byte is a marker the
part in front of it. -/
theorem singleByteCorruptionDetected : Obligations.SingleByteCorruptionDetected := by
  intro ea ec n pre post p b b' hp hne hraw hu f rest hdec
  have hsound := soundRegion_of_payload hp ea ec
  by_cases hb' : b' = Config.MARKER
  · have hpre : Config.MARKER ∉ pre := fun h => hraw (List.mem_append_left _ h)
    have hanswers : ([0x7E, ea, ec, 0x00] ++ (pre ++ b' :: post) ++ [0x7E]).map RxAnswer.byte =
        [0x7E, ea, ec, 0x00].map .byte ++ (pre.map .byte ++ .byte Config.MARKER :: (post ++ [0x7E]).map .byte) := by
      simp [hb']
    rw [hanswers] at hdec
    obtain ⟨w, hw, hsound'⟩ := soundRegion_of_decodeAnswers hpre hdec
    exact hsound.not_of_cut_short hu hw hsound'
  · have hraw' : Config.MARKER ∉ pre ++ b' :: post := by
      simp only [List.mem_append, List.mem_cons, not_or] at hraw ⊢
      obtain ⟨hpre, -, hpost⟩ := hraw
      exact ⟨hpre, Ne.symm hb', hpost⟩
    have hanswers : ([0x7E, ea, ec, 0x00] ++ (pre ++ b' :: post) ++ [0x7E]).map RxAnswer.byte =
        [0x7E, ea, ec, 0x00].map .byte ++ ((pre ++ b' :: post).map .byte ++ [.byte Config.MARKER]) := by
      simp [Config.MARKER]
    rw [hanswers] at hdec
    obtain ⟨u', hu', hsound'⟩ := soundRegion_of_decodeAnswers hraw' hdec
    exact hsound.not_of_changed_byte hne hu hu' hsound'

end Sys2Proof.Machine
end

section
/-! PROOFS. 41_checksum.md R151 to R153: the checksum in its sum form, and what the two checksum units answer. -/

namespace Sys2Proof.Machine

open Sys2Proof

/-! ### The sum form (R153) -/

/-- Bytes that stand in one place between the same others and give one sum modulo 256 are equal: a byte is below the
modulus. -/
theorem eq_of_sumBytes_mod_eq {l r : List Byte} {b b' : Byte}
    (h : sumBytes (l ++ b :: r) % 256 = sumBytes (l ++ b' :: r) % 256) : b = b' := by
  simp only [sumBytes_append, sumBytes_cons] at h
  apply BitVec.eq_of_toNat_eq
  omega

/-- Settles O11: the sum form of the checksum, and that a byte is fixed by the sum and the other bytes. -/
theorem checksumSumForm : Obligations.ChecksumSumForm := by
  simp only [Obligations.ChecksumSumForm, ← sumBytes_eq]
  refine ⟨eq_checksum_iff, fun l r b b' hne hsum hsum' => ?_⟩
  exact hne (eq_of_sumBytes_mod_eq (hsum.trans hsum'.symm))

/-! ### What the two units answer (R151, R152) -/

/-- The formula of R151 with the header's three bytes written out. -/
theorem checksum_header (a c l : Byte) (p : List Byte) :
    checksum [a, c, l] p =
      BitVec.ofNat 8 (255 - (a.toNat + c.toNat + l.toNat + (p.map BitVec.toNat).sum) % 256) := by
  simp [checksum, sumBytes_eq, Nat.add_assoc]

theorem exec_chkgen (a c l : Byte) (p : List Byte) (s : State) :
    exec (.chkgen a c l p) s = .next (s.answerWith (.checksum (checksum [a, c, l] p))) := rfl

theorem exec_chkverify_of_eq {a c l k : Byte} {p : List Byte} (h : checksum [a, c, l] p = k) (s : State) :
    exec (.chkverify a c l p k) s = .next (s.answerWith .verified) := by
  change execChkverify a c l p k s = _
  rw [execChkverify, (chkverify_eq_none_iff a c l p k).2 h]

theorem exec_chkverify_of_ne {a c l k : Byte} {p : List Byte} (h : checksum [a, c, l] p ≠ k) (s : State) :
    exec (.chkverify a c l p k) s = .next (s.answerWith (.checksumMismatch (checksum [a, c, l] p) k)) := by
  change execChkverify a c l p k s = _
  rw [execChkverify, chkverify, if_neg h]

/-- Settles O10: the equation of CHKGEN and the two of CHKVERIFY, with the checksum written out. -/
theorem checksumUnitAnswers : Obligations.ChecksumUnitAnswers := by
  intro a c l p k s
  simp only [← checksum_header]
  exact ⟨exec_chkgen a c l p s, fun h => exec_chkverify_of_eq h s, fun h => exec_chkverify_of_ne h s⟩

end Sys2Proof.Machine
end

section
/-! PROOFS. 42_frame_codec.md R163 to R171, R174, R175: what one step of DECODE does in each decode state with the byte, the
timeout or the error RxByte answers, what it leaves alone, and which operation the engine's move in AWAIT runs. -/

namespace Sys2Proof.Machine

open Sys2Proof

/-! ### The rule of each decode state, where it has no equation yet (R165 to R171) -/

theorem decodeByte_hunt {d : DecRegs} (h : d.decState = .hunt) (ea ec b : Byte) :
    decodeByte ea ec b d = ({ d with decState := if b = Config.MARKER then .addr else .hunt }, none) := by
  by_cases hb : b = Config.MARKER
  · rw [if_pos hb, hb]
    exact decodeByte_marker_hunt h ea ec
  · simp only [decodeByte, h, if_neg hb]
    rw [← h]

theorem decodeByte_addr_match {d : DecRegs} (h : d.decState = .addr) (ea ec : Byte) :
    decodeByte ea ec ea d = ({ d with rxAddr := ea, decState := .cmd }, none) := by
  simp [decodeByte, h]

theorem decodeByte_cmd_match {d : DecRegs} (h : d.decState = .cmd) (ea ec : Byte) :
    decodeByte ea ec ec d = ({ d with rxCmd := ec, decState := .status }, none) := by
  simp [decodeByte, h]

theorem decodeByte_cmd_mismatch {d : DecRegs} (h : d.decState = .cmd) {ec b : Byte} (hb : b ≠ ec) (ea : Byte) :
    decodeByte ea ec b d = decEnd { d with rxCmd := b } (mismatch .command .cmd ec b) := by
  simp [decodeByte, h, hb]

theorem decodeByte_drain {d : DecRegs} (h : d.decState = .drain) {b : Byte} (hb : b ≠ Config.MARKER) (ea ec : Byte) :
    decodeByte ea ec b d = (d, none) := by
  simp [decodeByte, h, hb]

theorem decodeByte_marker_body {d : DecRegs} (h : d.decState = .body) (ea ec : Byte) :
    decodeByte ea ec Config.MARKER d = decEnd (closeRegion d) (validateRegion (closeRegion d)) := by
  simp [decodeByte, h]

/-! ### One step of DECODE on a byte -/

/-- A byte that does not decide the decode moves the decode registers alone. -/
theorem exec_decode_goes_on {s : State} {b : Byte} {q : List Byte} {d : DecRegs} (h : ReadsByte s b q)
    (hon : s.dec.decState ≠ .off) (hrule : decodeByte s.txn.expAddr s.txn.expCmd b s.dec = (d, none)) :
    ReadsTo (exec .decode s) s fun n => { afterRead s q n with dec := d } := by
  refine ⟨s.now + 1 + s.lapse, by omega, ?_⟩
  rw [exec_decode_byte h hon, receiveAnswer_none (s := afterRead s q _) (a := .byte b) hrule]
  rfl

/-- A byte that decides the decode has its result classified. -/
theorem exec_decode_ends {s : State} {b : Byte} {q : List Byte} {d : DecRegs} {r : DecResult} (h : ReadsByte s b q)
    (hon : s.dec.decState ≠ .off) (hrule : decodeByte s.txn.expAddr s.txn.expCmd b s.dec = decEnd d r) :
    ReadsTo (exec .decode s) s fun n => conclude r ((afterRead s q n).setDec { d with decState := .off }) := by
  refine ⟨s.now + 1 + s.lapse, by omega, ?_⟩
  rw [exec_decode_byte h hon, receiveAnswer_some (s := afterRead s q _) (a := .byte b) hrule]

/-- What classifying a failure does to the state in which its decode ended. -/
theorem conclude_failed_taken (f : FailRec) (s : State) (d : DecRegs) :
    (conclude (.failed f) (s.setDec { d with decState := .off })).dec = { d with decState := .off } ∧
      FailureTaken f (failureTarget f.kind s.txn.attRem) s (conclude (.failed f) (s.setDec { d with decState := .off })) :=
  have htaken := takeFailure_taken f (s.setDec { d with decState := .off })
  ⟨takeFailure_dec f _, htaken.of_setDec⟩

/-- A byte that ends the decode in a failure has that failure taken. -/
theorem exec_decode_fails {s : State} {b : Byte} {q : List Byte} {d : DecRegs} {f : FailRec} (h : ReadsByte s b q)
    (hon : s.dec.decState ≠ .off) (hrule : decodeByte s.txn.expAddr s.txn.expCmd b s.dec = decEnd d (.failed f)) :
    ReadsSat (exec .decode s) s fun n t =>
      t.dec = { d with decState := .off } ∧
      FailureTaken f (failureTarget f.kind s.txn.attRem) (afterRead s q n) t := by
  obtain ⟨n, hn, hexec⟩ := exec_decode_ends h hon hrule
  exact ⟨n, _, hn, hexec, conclude_failed_taken f (afterRead s q n) d⟩

/-- Settles O14: the rule of D_HUNT. -/
theorem huntFindsMarker : Obligations.HuntFindsMarker := by
  intro s b q h hst
  exact exec_decode_goes_on h (by simp [hst]) (decodeByte_hunt hst _ _ b)

/-- Settles O15: the two rules of D_ADDR. -/
theorem addressByteChecked : Obligations.AddressByteChecked := by
  intro s b q h hst
  have hon : s.dec.decState ≠ .off := by simp [hst]
  refine ⟨?_, fun hne => exec_decode_fails h hon (decodeByte_addr_mismatch hst hne _)⟩
  rintro rfl
  exact exec_decode_goes_on h hon (decodeByte_addr_match hst _ _)

/-- Settles O16: the two rules of D_CMD. -/
theorem commandByteChecked : Obligations.CommandByteChecked := by
  intro s b q h hst
  have hon : s.dec.decState ≠ .off := by simp [hst]
  refine ⟨?_, fun hne => exec_decode_fails h hon (decodeByte_cmd_mismatch hst hne _)⟩
  rintro rfl
  exact exec_decode_goes_on h hon (decodeByte_cmd_match hst _ _)

/-- Settles O17: the rule of D_STATUS. -/
theorem statusByteTestedForZero : Obligations.StatusByteTestedForZero := by
  intro s b q h hst
  exact exec_decode_goes_on h (by simp [hst]) (decodeByte_status hst _ _ b)

/-- Settles O18: the two rules of D_DRAIN. -/
theorem drainEndsInDeviceError : Obligations.DrainEndsInDeviceError := by
  intro s b q h hst
  have hon : s.dec.decState ≠ .off := by simp [hst]
  refine ⟨fun hne => exec_decode_goes_on h hon (decodeByte_drain hst hne _ _), ?_⟩
  rintro rfl
  exact exec_decode_fails h hon (decodeByte_marker_drain hst _ _)

/-- Settles O19: in D_BODY the byte is fed to the streaming unstuffer, by the four equations of `feed`. -/
theorem bodyByteUnstuffed : Obligations.BodyByteUnstuffed := by
  intro s b q h hst hb
  have fed {d : DecRegs} (hd : feed b s.dec = d) :
      ReadsTo (exec .decode s) s fun n => { afterRead s q n with dec := d } :=
    exec_decode_goes_on h (by simp [hst]) (hd ▸ decodeByte_body hst hb _ _)
  refine ⟨fun hpend v hcode => ?_, fun hpend hcode => ?_, fun hpend hintro => ?_, fun hpend hplain => ?_⟩
  · have hv : unesc b = some v := by
      simp only [List.mem_cons, Prod.mk.injEq, List.not_mem_nil, or_false] at hcode
      obtain ⟨rfl, rfl⟩ | ⟨rfl, rfl⟩ | ⟨rfl, rfl⟩ | ⟨rfl, rfl⟩ := hcode
      all_goals rfl
    exact fed (feed_code hv hpend)
  · exact fed (feed_bad_code ((not_mem_escCodes_iff b).1 hcode) hpend)
  · subst hintro
    exact fed (feed_introducer hpend)
  · exact fed (feed_plain hplain hpend)

/-- Every failure of the region check is one of three, found in D_BODY (60_exceptions.md R283 to R285). -/
theorem validateRegion_failed {d : DecRegs} {f : FailRec} (h : validateRegion d = .failed f) :
    f.step = .body ∧ (f.kind = .escape ∨ f.kind = .length ∨ f.kind = .checksum) := by
  unfold validateRegion at h
  split at h
  · cases h; exact ⟨rfl, .inl rfl⟩
  · split at h
    · cases h; exact ⟨rfl, .inr (.inl rfl)⟩
    · split at h
      · cases h; exact ⟨rfl, .inr (.inl rfl)⟩
      · dsimp only at h
        split at h <;> cases h
        exact ⟨rfl, .inr (.inr rfl)⟩

/-- Settles O20: the rule of D_BODY at the marker, and what success and a transient failure write. -/
theorem closingMarkerDecides : Obligations.ClosingMarkerDecides := by
  intro s q h hst
  have hrule := decodeByte_marker_body hst s.txn.expAddr s.txn.expCmd
  have hon : s.dec.decState ≠ .off := by simp [hst]
  refine ⟨fun f hf => ?_, fun f hf => ?_⟩ <;> rw [hf] at hrule
  · obtain ⟨n, hn, hexec⟩ := exec_decode_ends h hon hrule
    exact ⟨n, hn, hexec.trans (congrArg _ (takeFrame_eq f _))⟩
  · obtain ⟨hstep, hkind⟩ := validateRegion_failed hf
    have htransient : f.kind.isTransient = true := by
      obtain hk | hk | hk := hkind <;> rw [hk] <;> rfl
    refine ⟨hstep, hkind, ?_⟩
    rw [← failureTarget_transient htransient]
    exact exec_decode_fails h hon hrule

/-! ### One step of DECODE without a byte (R174, R175) -/

theorem statusSoFar_eq (d : DecRegs) :
    statusSoFar d = if d.decState = .drain ∨ d.decState = .body then some d.rxStatus else none := by
  unfold statusSoFar
  split <;> simp [*]

/-- An answer that is no byte ends the decode in its failure, with the time as RxByte left it. -/
theorem exec_decode_stalls {s : State} {a : RxAnswer} {k : Kind} {n : Nat} (hawait : s.txn.tmState = .await)
    (hon : s.dec.decState ≠ .off) (hrx : rxByte s = (some a, s.setNow n))
    (ha : ∀ ea ec d, applyAnswer ea ec a d = decEnd d (stalled k d)) :
    NextSat (exec .decode s) fun t =>
      t.now = n ∧ t.link = s.link ∧ t.dec = { s.dec with decState := .off } ∧
      FailureTaken
        { kind := k, step := s.dec.decState, expect := none, got := none,
          status := if s.dec.decState = .drain ∨ s.dec.decState = .body then some s.dec.rxStatus else none }
        (failureTarget k s.txn.attRem) { s with now := n } t := by
  have hexec : exec .decode s = .next (receiveAnswer a (s.setNow n)) := by
    rw [exec, execDecode, decodeStep_await hawait hon, hrx, receive_some]
  obtain ⟨-, -, hlink, hnow⟩ := receive_kept (some a) (s.setNow n)
  refine ⟨_, hexec, hnow, hlink, ?_⟩
  rw [← statusSoFar_eq, receiveAnswer_some (ha _ _ _)]
  exact conclude_failed_taken _ (s.setNow n) s.dec

/-- Past the deadline, and on an empty queue that no agent will fill, RxByte answers timeout (20_memory.md R66; log 15). -/
theorem rxByte_timeout {s : State} (hsound : s.link.broken = false)
    (h : s.txn.deadline ≤ s.now ∨ (s.link.rxq = [] ∧ s.turns = [])) :
    ∃ n, s.txn.deadline ≤ n ∧ rxByte s = (some .timeout, s.setNow n) := by
  by_cases hlate : s.txn.deadline ≤ s.now
  · exact ⟨s.now + s.lapse, by omega, rxByte_expired hsound hlate⟩
  · obtain ⟨hq, hts⟩ := h.resolve_left hlate
    exact ⟨s.txn.deadline + s.lapse, by omega, rxByte_dry hsound (by omega) hq hts⟩

/-- Settles O21: RxByte answers timeout, which ends the decode in every decode state. -/
theorem deadlineEndsDecode : Obligations.DeadlineEndsDecode := by
  intro s hawait hon hsound hover
  obtain ⟨n, hn, hrx⟩ := rxByte_timeout hsound hover
  obtain ⟨t, hexec, rfl, hlink, hdec, htaken⟩ := exec_decode_stalls (k := .timeout) hawait hon hrx fun _ _ _ => rfl
  exact ⟨t, hexec, hn, hlink, hdec, htaken⟩

/-- Settles O22: RxByte answers error, which ends the decode in every decode state. -/
theorem brokenTransportEndsDecode : Obligations.BrokenTransportEndsDecode := by
  intro s hawait hon hbroken
  obtain ⟨t, hexec, -, -, hdec, htaken⟩ :=
    exec_decode_stalls (k := .transport) hawait hon (rxByte_broken hbroken) fun _ _ _ => rfl
  exact ⟨t, hexec, hdec, htaken⟩

/-! ### What the wire leaves alone -/

/-- The frame of DECODE and the rows of the wire: of the transaction registers they write TM_STATE alone, of the transport
RXQ alone, and what they emit is added. -/
structure WireFrame (s t : State) : Prop where
  cfg : t.cfg = s.cfg
  req : t.req = s.req
  txn : t.txn = { s.txn with tmState := t.txn.tmState }
  link : t.link = { s.link with rxq := t.link.rxq }
  lapse : t.lapse = s.lapse
  hostq : t.hostq = s.hostq
  turns : t.turns = s.turns
  answer : t.answer = s.answer
  events : s.events <+: t.events
  time : s.now ≤ t.now

theorem WireFrame.refl (s : State) : WireFrame s s :=
  ⟨rfl, rfl, rfl, rfl, rfl, rfl, rfl, rfl, ⟨[], List.append_nil _⟩, le_rfl⟩

theorem WireFrame.trans {s t u : State} (h : WireFrame s t) (g : WireFrame t u) : WireFrame s u where
  cfg := g.cfg.trans h.cfg
  req := g.req.trans h.req
  txn := by rw [g.txn, h.txn]
  link := by rw [g.link, h.link]
  lapse := g.lapse.trans h.lapse
  hostq := g.hostq.trans h.hostq
  turns := g.turns.trans h.turns
  answer := g.answer.trans h.answer
  events := h.events.trans g.events
  time := h.time.trans g.time

theorem setRxq_wireFrame (s : State) (q : List Byte) : WireFrame s (s.setRxq q) := { WireFrame.refl s with link := rfl }

theorem setDec_wireFrame (s : State) (d : DecRegs) : WireFrame s (s.setDec d) := { WireFrame.refl s with }

theorem rxByte_wireFrame (s : State) : WireFrame s (rxByte s).2 := by
  obtain ⟨q, n, hn, hrx⟩ := rxByte_frame s
  rw [hrx]
  exact { WireFrame.refl s with link := rfl, time := hn }

theorem conclude_wireFrame (r : DecResult) (s : State) : WireFrame s (conclude r s) := by
  cases r with
  | frame f =>
    rw [conclude, takeFrame_eq]
    exact { WireFrame.refl s with txn := rfl, events := ⟨_, rfl⟩ }
  | failed f =>
    have htaken := takeFailure_taken f s
    obtain ⟨hcfg, hreq, hlink, hnow, hlapse, hhostq, hturns, hanswer⟩ := htaken.kept
    exact
      { cfg := hcfg, req := hreq, lapse := hlapse, hostq := hhostq, turns := hturns, answer := hanswer
        txn := by rw [conclude, htaken.txn]
        link := by rw [conclude, hlink]
        events := by rw [conclude, htaken.events]; exact ⟨_, rfl⟩
        time := hnow.ge }

theorem receive_wireFrame (a : Option RxAnswer) (s : State) : WireFrame s (receive a s) := by
  cases a with
  | none => exact .refl s
  | some a =>
    simp only [receive_some, receiveAnswer, settle]
    split
    · exact setDec_wireFrame s _
    · exact (setDec_wireFrame s _).trans (conclude_wireFrame _ _)

theorem wireByte_wireFrame (b : Byte) (s : State) : WireFrame s (wireByte b s) := by
  unfold wireByte
  split
  · exact receive_wireFrame (some (.byte b)) s
  · exact setRxq_wireFrame s _

theorem wireEscape_wireFrame (c : Byte) (s : State) : WireFrame s (wireEscape c s) := by
  have hintro := wireByte_wireFrame Config.ESC s
  unfold wireEscape
  split
  · split
    · exact wireByte_wireFrame c s
    · dsimp only
      split
      · exact hintro.trans (wireByte_wireFrame c _)
      · exact hintro.trans (setRxq_wireFrame _ _)
  · exact setRxq_wireFrame s _

theorem decodeStep_wireFrame {s t : State} (h : decodeStep s = .next t) : WireFrame s t := by
  obtain ⟨-, rfl⟩ | ⟨-, rfl⟩ := decodeStep_next h
  · exact .refl _
  · exact (rxByte_wireFrame s).trans (receive_wireFrame _ _)

/-- Settles O30: each of the operations is `wireEscape` of its code, `wireByte` of its byte or one step of DECODE. -/
theorem wireOperationsFrame : Obligations.WireOperationsFrame := by
  intro i s t hrow hexec
  have hframe : WireFrame s t := by
    obtain ⟨a, rfl⟩ | hi := hrow.symm
    · cases hexec
      exact wireByte_wireFrame _ s
    · simp only [List.mem_cons, List.not_mem_nil, or_false] at hi
      obtain rfl | rfl | rfl | rfl | hi := hi
      iterate 4
        · cases hexec
          exact wireEscape_wireFrame _ s
      obtain rfl | rfl | rfl | rfl | rfl | rfl | rfl | rfl | rfl := hi
      iterate 8
        · cases hexec
          exact wireByte_wireFrame _ s
      exact decodeStep_wireFrame hexec
  obtain ⟨hcfg, hreq, htxn, hlink, hlapse, hhostq, hturns, hanswer, hevents, htime⟩ := hframe
  exact ⟨hcfg, hreq, htxn, by rw [hlink], by rw [hlink], by rw [hlink], by rw [hlink], hlapse, hhostq, hturns, hanswer,
    hevents, htime⟩

/-! ### The engine's move in AWAIT (43_transaction.md R207; log 1, log 8) -/

/-- With a transaction in AWAIT the engine moves when it is first in the list, and when nothing is listed. -/
theorem step_eq_engineStep {s : State} {ts : List Turn} (hawait : s.txn.tmState = .await)
    (h : s.turns = .engine :: ts ∨ (s.turns = [] ∧ ts = [])) : step s = engineStep (s.setTurns ts) := by
  obtain h | ⟨h, rfl⟩ := h
  · exact step_engine h
  · rw [step_active h (by simp [State.active, State.busy, State.done, hawait, isTerminal]), ← h, State.setTurns_self]

theorem engineStep_wire {s s' : State} {i : Instr} (hawait : s.txn.tmState = .await)
    (hw : fetchWire s = some (i, s')) : engineStep s = exec i s' := by
  simp [engineStep, hawait, hw]

theorem engineStep_decode {s : State} (hawait : s.txn.tmState = .await) (hw : fetchWire s = none) :
    engineStep s = exec .decode s := by
  simp [engineStep, hawait, hw]

/-- The byte RxByte answers is fetched as the operation of the record it completes. -/
theorem fetchWire_record {s : State} {b : Byte} {q : List Byte} {f : Format} {bs : List Byte} {i : Instr}
    (h : ReadsByte s b q) (hon : s.dec.decState ≠ .off) (hrec : wireRecord s.dec b = some (f, bs))
    (hdec : decode f bs = .ok i) : fetchWire s = some (i, afterRead s q (s.now + 1 + s.lapse)) := by
  simp only [fetchWire, if_neg hon, rxByte_byte h.sound h.inTime h.queue, hrec, hdec]
  rfl

theorem wireRecord_status {d : DecRegs} (hst : d.decState = .status) (b : Byte) :
    wireRecord d b = some (.status, [b]) :=
  if_pos hst

theorem wireRecord_marker {d : DecRegs} (hst : d.decState ≠ .status) {b : Byte} (hb : b = Config.MARKER) :
    wireRecord d b = some (.delim, [b]) := by
  rw [wireRecord, if_neg hst, if_pos hb]

theorem wireRecord_pair {d : DecRegs} (hst : d.decState = .body) (hpend : d.escPend = true) {b : Byte}
    (hb : b ≠ Config.MARKER) : wireRecord d b = some (.esc, [Config.ESC, b]) := by
  rw [wireRecord, if_neg (by simp [hst]), if_neg hb, if_pos ⟨hst, hpend⟩]

/-- Outside D_STATUS a byte other than the marker completes a record that decodes only as the code of an escape pair. -/
theorem wireRecord_code {d : DecRegs} {b : Byte} {f : Format} {bs : List Byte} {i : Instr} (hst : d.decState ≠ .status)
    (hb : b ≠ Config.MARKER) (hrec : wireRecord d b = some (f, bs)) (hdec : decode f bs = .ok i) :
    d.decState = .body ∧ d.escPend = true ∧ b ∈ [(0x5E : Byte), 0x5D, 0x31, 0x33] := by
  rw [wireRecord, if_neg hst, if_neg hb] at hrec
  split at hrec <;> cases hrec
  next hpend =>
    refine ⟨hpend.1, hpend.2, ?_⟩
    by_contra hcode
    simp only [List.mem_cons, List.not_mem_nil, or_false, not_or] at hcode
    obtain ⟨h5E, h5D, h31, h33⟩ := hcode
    rw [decode, decodeEsc, if_neg (by simp), if_neg h5E, if_neg h5D, if_neg h31, if_neg h33] at hdec
    cases hdec

/-- Settles O47: where the byte completes a record that decodes the engine fetches its operation, elsewhere nothing. -/
theorem stepRunsWireOperation : Obligations.StepRunsWireOperation := by
  intro s ts hturn hawait hon
  rw [step_eq_engineStep hawait hturn]
  have decodes (hnone : ∀ b f bs i q, ReadsByte s b q → wireRecord s.dec b = some (f, bs) → decode f bs ≠ .ok i) :
      engineStep (s.setTurns ts) = exec .decode (s.setTurns ts) := by
    refine engineStep_decode hawait (Option.eq_none_iff_forall_ne_some.2 fun ⟨i, s'⟩ hw => ?_)
    obtain ⟨b, f, bs, hb, hrec, hdec⟩ := fetchWire_eq_some hw
    obtain ⟨q, hsound, htime, hq, -⟩ := rxByte_eq_byte hb
    exact hnone b f bs i q ⟨hawait, hsound, htime, hq⟩ hrec hdec
  refine ⟨fun b q f bs i h hform hdec => ?_, fun b q h hst hb hcode => ?_, fun hdry => ?_⟩
  · have hrec : wireRecord s.dec b = some (f, bs) := by
      obtain ⟨hst, rfl, rfl⟩ | ⟨hst, hb, rfl, rfl⟩ | ⟨hst, hb, hpend, rfl, rfl⟩ := hform
      · exact wireRecord_status hst b
      · exact wireRecord_marker hst hb
      · exact wireRecord_pair hst hpend hb
    have hread : ReadsByte (s.setTurns ts) b q := ⟨h.await, h.sound, h.inTime, h.queue⟩
    exact ⟨s.now + 1 + s.lapse, by omega, engineStep_wire hawait (fetchWire_record hread hon hrec hdec)⟩
  · refine decodes fun b' f bs i q' h' hrec hdec => ?_
    obtain ⟨rfl, -⟩ := List.cons.inj (h.queue.symm.trans h'.queue)
    obtain ⟨hbody, hpend, hmem⟩ := wireRecord_code hst hb hrec hdec
    exact hcode hbody hpend hmem
  · refine decodes fun b f bs i q h _ _ => ?_
    obtain hbroken | hlate | hempty := hdry
    · simp [h.sound] at hbroken
    · exact absurd h.inTime (Nat.not_lt.2 hlate)
    · simp [h.queue] at hempty

end Sys2Proof.Machine
end

section
/-! PROOFS. 42_frame_codec.md R161, R162, R172, R173, R176, R177: the frame ENCODE composes, the two forms of the region
check, and what a decode that returns a frame has read. -/

namespace Sys2Proof.Machine

open Sys2Proof

/-! ### The frame of a request (R161, R162) -/

theorem exec_encode {p : List Byte} (h : p.length ≤ 255) (a c : Byte) (s : State) :
    exec (.encode a c p) s = .next (s.answerWith (.bytes (encodeFrame a c p))) :=
  if_pos h

/-- The formula of R151 with the length byte the frame carries. -/
theorem checksum_request {p : List Byte} (h : p.length ≤ 255) (a c : Byte) :
    checksum [a, c, lengthByte p] p =
      BitVec.ofNat 8 (255 - (a.toNat + c.toNat + p.length + (p.map BitVec.toNat).sum) % 256) := by
  rw [checksum_header, lengthByte_toNat h]

/-- Settles O12: the frame of ENCODE with its checksum written out. -/
theorem encodeComposesFrame : Obligations.EncodeComposesFrame := by
  intro a c p s hp
  rw [← checksum_request hp]
  exact exec_encode hp a c s

/-- Of the bytes of a request at most the payload, the checksum and a length byte below 255 are stuffed. -/
theorem countP_requestInterior_le {a c : Byte} {p : List Byte} (ha : isReserved a = false) (hc : isReserved c = false)
    (hp : p.length ≤ 255) : (requestInterior a c p).countP isReserved + p.length ≤ 511 := by
  have hpay : p.countP isReserved ≤ p.length := List.countP_le_length
  have hlast : [checksum [a, c, lengthByte p] p].countP isReserved ≤ 1 := List.countP_le_length
  have hfirst : [lengthByte p].countP isReserved ≤ 255 - p.length := by
    by_cases hfull : p.length = 255
    · rw [lengthByte, hfull]
      decide
    · have hone : [lengthByte p].countP isReserved ≤ 1 := List.countP_le_length
      omega
  have hhead : [a, c].countP isReserved = 0 := by simp [ha, hc]
  have hsplit : requestInterior a c p = [a, c] ++ [lengthByte p] ++ p ++ [checksum [a, c, lengthByte p] p] := rfl
  simp only [hsplit, List.countP_append]
  omega

/-- The bounds of 30_encoding.md R92 and R162. -/
theorem encodeFrame_length {a c : Byte} {p : List Byte} (ha : isReserved a = false) (hc : isReserved c = false)
    (hp : p.length ≤ 255) : 6 ≤ (encodeFrame a c p).length ∧ (encodeFrame a c p).length ≤ 517 := by
  have hstuffed := countP_requestInterior_le ha hc hp
  have hinterior : (requestInterior a c p).length = p.length + 4 := by simp [requestInterior]
  have hlen : (encodeFrame a c p).length = (stuff (requestInterior a c p)).length + 2 := by
    simp only [encodeFrame, List.length_append, List.length_singleton]
    omega
  rw [hlen, stuff_length, hinterior]
  omega

theorem isReserved_of_isCommand {c : Byte} (h : isCommand c = true) : isReserved c = false := by
  rw [isCommand_iff] at h
  revert c
  decide

/-- Settles O13: the interior is what STUFF emits for header, payload and checksum. -/
theorem encodedFrameVerifies : Obligations.EncodedFrameVerifies := by
  intro a c p hp
  have absent {b : Byte} (hb : isReserved b = true) (hne : b ≠ Config.ESC) : b ∉ stuff (requestInterior a c p) :=
    fun hmem => by simp [isReserved_of_mem_stuff hmem hne] at hb
  refine ⟨stuff (requestInterior a c p), rfl, absent rfl (by decide), absent rfl (by decide), absent rfl (by decide),
    ⟨checksum [a, c, lengthByte p] p, unstuff_stuff _, (chkverify_eq_none_iff _ _ _ _ _).2 rfl, ?_⟩, ?_⟩
  · have hsum := (eq_checksum_iff [a, c, lengthByte p] p _).1 rfl
    rw [← sumBytes_eq]
    show sumBytes (requestInterior a c p) % 256 = 255
    simpa only [requestInterior, sumBytes_append, sumBytes_cons, sumBytes_nil, Nat.add_zero] using hsum
  · rintro rfl hc
    exact encodeFrame_length rfl (isReserved_of_isCommand hc) hp

/-! ### The two forms of the region check (R172) -/

/-- The last step of both forms, over a region of length byte `l`, payload `p` and checksum byte `k`. -/
def checksumVerdict (a c l : Byte) (p : List Byte) (k : Byte) : DecResult :=
  if checksum [a, c, l] p = k then .frame { address := a, command := c, status := 0x00, payload := p }
  else bodyFailure .checksum (some (checksum [a, c, l] p)) (some (k.zeroExtend 9))

/-- A region of two bytes or more is a length byte, a payload and a checksum byte. -/
theorem region_split (u : List Byte) : u.length < 2 ∨ ∃ l p k, u = l :: (p ++ [k]) := by
  match u with
  | [] => exact .inl (by simp)
  | [_] => exact .inl (by simp)
  | l :: x :: t => exact .inr ⟨l, (x :: t).dropLast, (x :: t).getLast (by simp), by rw [List.dropLast_append_getLast]⟩

theorem byteAt_last (l k : Byte) (p : List Byte) : byteAt (l :: (p ++ [k])) (p.length + 1) = k := by
  simp [byteAt]

theorem regionVerdict_malformed {raw : List Byte} (hu : unstuff raw = none) (a c : Byte) :
    regionVerdict a c raw = bodyFailure .escape none none := by
  rw [regionVerdict, hu]

theorem regionVerdict_short {raw u : List Byte} (hu : unstuff raw = some u) (h : u.length < 2) (a c : Byte) :
    regionVerdict a c raw = bodyFailure .length u.head? (some 0) := by
  simp only [regionVerdict, hu, if_pos h]

theorem regionVerdict_mislength {raw p : List Byte} {l k : Byte} (hu : unstuff raw = some (l :: (p ++ [k])))
    (h : l.toNat ≠ p.length) (a c : Byte) :
    regionVerdict a c raw = bodyFailure .length (some l) (some (BitVec.ofNat 9 (min p.length 256))) := by
  have hfirst : byteAt (l :: (p ++ [k])) 0 = l := rfl
  simp [regionVerdict, hu, hfirst, h]

theorem regionVerdict_declared {raw p : List Byte} {l k : Byte} (hu : unstuff raw = some (l :: (p ++ [k])))
    (h : l.toNat = p.length) (a c : Byte) : regionVerdict a c raw = checksumVerdict a c l p k := by
  have hfirst : byteAt (l :: (p ++ [k])) 0 = l := rfl
  by_cases hk : checksum [a, c, l] p = k <;>
    simp [regionVerdict, hu, hfirst, h, byteAt_last, chkverify, checksumVerdict, hk]

theorem Holds.validateRegion_short {d : DecRegs} {u : List Byte} (hd : Holds d u) (h : u.length < 2) :
    validateRegion d = bodyFailure .length u.head? (some 0) := by
  match u with
  | [] => simp [validateRegion, hd.sound, hd.cnt]
  | [x] =>
    have hfirst : byteAt d.rxBuf 0 = x := by rw [hd.buf]; rfl
    simp [validateRegion, hd.sound, hd.cnt, hfirst]
  | _ :: _ :: _ => simp at h

theorem Holds.validateRegion_mislength {d : DecRegs} {p : List Byte} {l k : Byte} (hd : Holds d (l :: (p ++ [k])))
    (h : l.toNat ≠ p.length) :
    validateRegion d = bodyFailure .length (some l) (some (BitVec.ofNat 9 (min p.length 256))) := by
  have hfirst : byteAt d.rxBuf 0 = l := by rw [hd.buf]; rfl
  have hcnt : d.rxCnt = min p.length 256 + 2 := by
    rw [hd.cnt]
    simp only [List.length_cons, List.length_append, List.length_nil]
    omega
  have hne : l.toNat ≠ min p.length 256 := by
    have hl := l.isLt
    omega
  simp [validateRegion, hd.sound, hcnt, hfirst, hne]

theorem Holds.validateRegion_declared {d : DecRegs} {p : List Byte} {l k : Byte} (hd : Holds d (l :: (p ++ [k])))
    (h : l.toNat = p.length) : validateRegion d = checksumVerdict d.rxAddr d.rxCmd l p k := by
  have hl := l.isLt
  have hbuf : d.rxBuf = l :: (p ++ [k]) := hd.buf.trans (List.take_of_length_le (by simp; omega))
  have hcnt : d.rxCnt = p.length + 2 := by
    rw [hd.cnt]
    simp only [List.length_cons, List.length_append, List.length_nil]
    omega
  have hfirst : byteAt (l :: (p ++ [k])) 0 = l := rfl
  by_cases hk : checksum [d.rxAddr, d.rxCmd, l] p = k <;>
    simp [validateRegion, hd.sound, hcnt, hbuf, hfirst, h, Nat.add_comm 1, byteAt_last, chkverify, checksumVerdict, hk]

/-- The check over the registers at the end of a region is the check over the region, whatever was fed. -/
theorem validateRegion_region {d : DecRegs} (h : Holds d []) (raw : List Byte) :
    validateRegion (closeRegion (raw.foldl (fun d b => feed b d) d)) = regionVerdict d.rxAddr d.rxCmd raw := by
  obtain ⟨hsome, hnone⟩ := region_holds h raw
  obtain ⟨-, haddr, hcmd, -⟩ := region_header raw d
  cases hu : unstuff raw with
  | none => rw [validateRegion, if_pos (hnone hu), regionVerdict_malformed hu]
  | some u =>
    have hd := hsome u hu
    obtain hshort | ⟨l, p, k, rfl⟩ := region_split u
    · rw [hd.validateRegion_short hshort, regionVerdict_short hu hshort]
    · by_cases hlen : l.toNat = p.length
      · rw [hd.validateRegion_declared hlen, regionVerdict_declared hu hlen, haddr, hcmd]
      · rw [hd.validateRegion_mislength hlen, regionVerdict_mislength hu hlen]

/-- Settles O9: the branches of the two forms are the same, region by region. -/
theorem regionValidationFormsAgree : Obligations.RegionValidationFormsAgree :=
  fun raw _ hcnt hbuf hpend hsound => validateRegion_region (holds_of_cleared hcnt hbuf hpend hsound) raw

/-! ### The frame a region gives (R173) -/

/-- The unstuffed region of a response that carries `p` (30_encoding.md R91). -/
def responseRegion (a c : Byte) (p : List Byte) : List Byte :=
  [lengthByte p] ++ p ++ [checksum [a, c, lengthByte p] p]

theorem checksumVerdict_eq_frame_iff {a c l k : Byte} {p : List Byte} {f : Frame} :
    checksumVerdict a c l p k = .frame f ↔
      k = checksum [a, c, l] p ∧ f = { address := a, command := c, status := 0x00, payload := p } := by
  unfold checksumVerdict
  split
  · simp_all [eq_comm]
  · next hne => exact ⟨nofun, fun h => absurd h.1.symm hne⟩

/-- The region check passes exactly on the region of a response, and its frame carries that payload. -/
theorem regionVerdict_eq_frame_iff {a c : Byte} {raw : List Byte} {f : Frame} :
    regionVerdict a c raw = .frame f ↔
      ∃ p, p.length ≤ 255 ∧ f = { address := a, command := c, status := 0x00, payload := p } ∧
        unstuff raw = some (responseRegion a c p) := by
  constructor
  · intro h
    cases hu : unstuff raw with
    | none => rw [regionVerdict_malformed hu] at h; cases h
    | some u =>
      obtain hshort | ⟨l, p, k, rfl⟩ := region_split u
      · rw [regionVerdict_short hu hshort] at h; cases h
      · by_cases hlen : l.toNat = p.length
        · rw [regionVerdict_declared hu hlen, checksumVerdict_eq_frame_iff] at h
          obtain ⟨rfl, rfl⟩ := h
          have hl := l.isLt
          obtain rfl : l = lengthByte p := BitVec.eq_of_toNat_eq (by rw [lengthByte_toNat (by omega), hlen])
          exact ⟨p, by omega, rfl, rfl⟩
        · rw [regionVerdict_mislength hu hlen] at h; cases h
  · rintro ⟨p, hp, rfl, hu⟩
    rw [regionVerdict_declared hu (lengthByte_toNat hp), checksumVerdict_eq_frame_iff]
    exact ⟨rfl, rfl⟩

/-! ### A response that arrives whole (R177) -/

/-- Marker, expected header, region, marker: the decode gives the verdict on the region, and consumes nothing more (R176). -/
theorem decodeAnswers_response {raw : List Byte} (hraw : Config.MARKER ∉ raw) (ea ec : Byte) (n : Nat)
    (as : List RxAnswer) :
    decodeAnswers ea ec (startDecode n) ([0x7E, ea, ec, 0x00].map .byte ++ (raw.map .byte ++ .byte Config.MARKER :: as)) =
      some (regionVerdict ea ec raw, as) := by
  rw [decodeAnswers_header, decodeAnswers_region hraw rfl, validateRegion_region (holds_regionStart ea ec n)]
  rfl

/-- Settles O24: the decode gives the verdict on the region, and the stuffed form unstuffs to the region of the payload. -/
theorem wholeResponseDecodes : Obligations.WholeResponseDecodes := by
  intro ea ec n p hp
  have decodes (raw : List Byte) (hraw : Config.MARKER ∉ raw) :
      decodeAnswers ea ec (startDecode n) (([0x7E, ea, ec, 0x00] ++ raw ++ [0x7E]).map .byte) =
          some (.frame { address := ea, command := ec, status := 0x00, payload := p }, []) ↔
        unstuff raw = some (responseRegion ea ec p) := by
    have hanswers : ([0x7E, ea, ec, 0x00] ++ raw ++ [0x7E]).map RxAnswer.byte =
        [0x7E, ea, ec, 0x00].map .byte ++ (raw.map .byte ++ [.byte Config.MARKER]) := by
      simp [Config.MARKER]
    rw [hanswers, decodeAnswers_response hraw]
    simp only [Option.some.injEq, Prod.mk.injEq, and_true, regionVerdict_eq_frame_iff, Frame.mk.injEq, true_and]
    exact ⟨fun ⟨_, _, rfl, hu⟩ => hu, fun hu => ⟨p, hp, rfl, hu⟩⟩
  have hstuffed : Config.MARKER ∉ stuff (responseRegion ea ec p) := fun hmem => by
    cases isReserved_of_mem_stuff hmem (by decide)
  exact ⟨decodes, (decodes _ hstuffed).2 (unstuff_stuff _)⟩

/-! ### What a decode that returns a frame has read (R173, R176) -/

section

variable {ea ec : Byte} {d : DecRegs} {as rest : List RxAnswer} {f : Frame}

/-- A timeout and an error end a decode in a failure, so a frame has a byte first. -/
theorem decodeAnswers_frame_head (h : decodeAnswers ea ec d as = some (.frame f, rest)) : ∃ b as', as = .byte b :: as' := by
  match as with
  | [] => cases h
  | .byte b :: as' => exact ⟨b, as', rfl⟩
  | .timeout :: _ => cases h
  | .error :: _ => cases h

theorem decodeAnswers_goes_on {b : Byte} {d' : DecRegs} (hrule : decodeByte ea ec b d = (d', none)) :
    decodeAnswers ea ec d (.byte b :: as) = decodeAnswers ea ec d' as := by
  simp [decodeAnswers, applyAnswer, hrule]

theorem decodeAnswers_ends {b : Byte} {d' : DecRegs} {r : DecResult} (hrule : decodeByte ea ec b d = decEnd d' r) :
    decodeAnswers ea ec d (.byte b :: as) = some (r, as) := by
  simp [decodeAnswers, applyAnswer, hrule, decEnd]

/-- D_HUNT: bytes without a marker are discarded up to the opening marker (R165). -/
theorem decodeAnswers_frame_hunt (hd : d.decState = .hunt) (h : decodeAnswers ea ec d as = some (.frame f, rest)) :
    ∃ (pre : List Byte) (as' : List RxAnswer), Config.MARKER ∉ pre ∧ as = pre.map .byte ++ .byte Config.MARKER :: as' ∧
      decodeAnswers ea ec { d with decState := .addr } as' = some (.frame f, rest) := by
  induction as generalizing d with
  | nil => cases h
  | cons a as ih =>
    obtain ⟨b, as', has⟩ := decodeAnswers_frame_head h
    obtain ⟨rfl, rfl⟩ := List.cons.inj has
    rw [decodeAnswers_goes_on (decodeByte_hunt hd ea ec b)] at h
    by_cases hb : b = Config.MARKER
    · rw [if_pos hb] at h
      exact ⟨[], as, by simp, by rw [hb]; rfl, h⟩
    · rw [if_neg hb] at h
      obtain ⟨pre, as', hpre, rfl, h'⟩ := ih rfl h
      exact ⟨b :: pre, as', by simp [hpre, Ne.symm hb], rfl, h'⟩

/-- D_ADDR: the address byte is the expected one (R166). -/
theorem decodeAnswers_frame_addr (hd : d.decState = .addr) (h : decodeAnswers ea ec d as = some (.frame f, rest)) :
    ∃ as', as = .byte ea :: as' ∧
      decodeAnswers ea ec { d with rxAddr := ea, decState := .cmd } as' = some (.frame f, rest) := by
  obtain ⟨b, as', rfl⟩ := decodeAnswers_frame_head h
  by_cases hb : b = ea
  · subst hb
    exact ⟨as', rfl, by rwa [decodeAnswers_goes_on (decodeByte_addr_match hd _ _)] at h⟩
  · rw [decodeAnswers_ends (decodeByte_addr_mismatch hd hb _)] at h
    cases h

/-- D_CMD: the command byte is the expected one (R167). -/
theorem decodeAnswers_frame_cmd (hd : d.decState = .cmd) (h : decodeAnswers ea ec d as = some (.frame f, rest)) :
    ∃ as', as = .byte ec :: as' ∧
      decodeAnswers ea ec { d with rxCmd := ec, decState := .status } as' = some (.frame f, rest) := by
  obtain ⟨b, as', rfl⟩ := decodeAnswers_frame_head h
  by_cases hb : b = ec
  · subst hb
    exact ⟨as', rfl, by rwa [decodeAnswers_goes_on (decodeByte_cmd_match hd _ _)] at h⟩
  · rw [decodeAnswers_ends (decodeByte_cmd_mismatch hd hb _)] at h
    cases h

/-- D_DRAIN never gives a frame (R169). -/
theorem decodeAnswers_drain_ne_frame (hd : d.decState = .drain) : decodeAnswers ea ec d as ≠ some (.frame f, rest) := by
  intro h
  induction as with
  | nil => cases h
  | cons a as ih =>
    obtain ⟨b, as', has⟩ := decodeAnswers_frame_head h
    obtain ⟨rfl, rfl⟩ := List.cons.inj has
    by_cases hb : b = Config.MARKER
    · rw [hb, decodeAnswers_ends (decodeByte_marker_drain hd _ _)] at h
      cases h
    · exact ih (by rwa [decodeAnswers_goes_on (decodeByte_drain hd hb _ _)] at h)

/-- D_STATUS: the status byte is zero, for any other drains (R168). -/
theorem decodeAnswers_frame_status (hd : d.decState = .status) (h : decodeAnswers ea ec d as = some (.frame f, rest)) :
    ∃ as', as = .byte 0x00 :: as' ∧
      decodeAnswers ea ec { d with rxStatus := 0x00, decState := .body } as' = some (.frame f, rest) := by
  obtain ⟨b, as', rfl⟩ := decodeAnswers_frame_head h
  rw [decodeAnswers_goes_on (decodeByte_status hd _ _ _)] at h
  by_cases hb : b = 0x00
  · subst hb
    exact ⟨as', rfl, h⟩
  · rw [if_neg hb] at h
    exact absurd h (decodeAnswers_drain_ne_frame rfl)

/-- D_BODY: bytes without a marker up to the closing one (R170, R171). -/
theorem decodeAnswers_frame_body (hd : d.decState = .body) (h : decodeAnswers ea ec d as = some (.frame f, rest)) :
    ∃ (raw : List Byte) (as' : List RxAnswer), Config.MARKER ∉ raw ∧ as = raw.map .byte ++ .byte Config.MARKER :: as' := by
  induction as generalizing d with
  | nil => cases h
  | cons a as ih =>
    obtain ⟨b, as', has⟩ := decodeAnswers_frame_head h
    obtain ⟨rfl, rfl⟩ := List.cons.inj has
    by_cases hb : b = Config.MARKER
    · exact ⟨[], as, by simp, by rw [hb]; rfl⟩
    · rw [decodeAnswers_goes_on (decodeByte_body hd hb _ _)] at h
      obtain ⟨raw, as', hraw, rfl⟩ := ih ((feed_header b d).1.trans hd) h
      exact ⟨b :: raw, as', by simp [hraw, Ne.symm hb], rfl⟩

end

/-- Settles O23: the decode states in their order say what the answers begin with, and the region check what the region
is. -/
theorem validatedFrameGuarantees : Obligations.ValidatedFrameGuarantees := by
  intro ea ec n as rest f h
  obtain ⟨pre, _, hpre, rfl, haddr⟩ := decodeAnswers_frame_hunt rfl h
  obtain ⟨_, rfl, hcmd⟩ := decodeAnswers_frame_addr rfl haddr
  obtain ⟨_, rfl, hstatus⟩ := decodeAnswers_frame_cmd rfl hcmd
  obtain ⟨_, rfl, hbody⟩ := decodeAnswers_frame_status rfl hstatus
  obtain ⟨raw, as', hraw, rfl⟩ := decodeAnswers_frame_body rfl hbody
  have hwhole : decodeAnswers ea ec (regionStart ea ec n) (raw.map .byte ++ .byte Config.MARKER :: as') =
      some (.frame f, rest) := hbody
  rw [← decodeAnswers_header, decodeAnswers_response hraw, Option.some.injEq, Prod.mk.injEq] at hwhole
  obtain ⟨hframe, rfl⟩ := hwhole
  obtain ⟨p, hp, rfl, hu⟩ := regionVerdict_eq_frame_iff.1 hframe
  exact ⟨rfl, rfl, rfl, hp, pre, raw, hpre, hraw, by simp [Config.MARKER], hu⟩

end Sys2Proof.Machine
end

section
/-! PROOFS. 43_transaction.md R203 to R206 and R211 to R214: EXECUTE, the engine's steps in START, SENT and BACKOFF, and
CONSUME. -/

namespace Sys2Proof.Machine

open Sys2Proof

/-! ### EXECUTE (R203, R204) -/

section

variable {c : Byte} {p : List Byte} {s : State}

theorem not_busy (h : s.txn.tmState = .idle) : ¬ s.busy = true := by
  simp [busy_iff, h]

theorem executeRefusal_busy (h : s.txn.tmState ≠ .idle) : executeRefusal c p s = some .busy := by
  rw [executeRefusal, if_pos ((busy_iff s).2 h)]

theorem executeRefusal_illegal (h : s.txn.tmState = .idle) (hc : isCommand c = false) :
    executeRefusal c p s = some .illegalCommand := by
  rw [executeRefusal, if_neg (not_busy h), if_pos (by simp [hc])]

theorem executeRefusal_long (h : s.txn.tmState = .idle) (hc : isCommand c = true) (hp : 255 < p.length) :
    executeRefusal c p s = some .payloadTooLong := by
  rw [executeRefusal, if_neg (not_busy h), if_neg (by simp [hc])]
  exact if_pos hp

theorem executeRefusal_badConfig (h : s.txn.tmState = .idle) (hc : isCommand c = true) (hp : p.length ≤ 255)
    (hcfg : s.cfg.retries = 0 ∨ s.cfg.timeout = 0) : executeRefusal c p s = some .badConfig := by
  rw [executeRefusal, if_neg (not_busy h), if_neg (by simp [hc])]
  exact (if_neg (Nat.not_lt.2 hp)).trans (if_pos hcfg)

theorem executeRefusal_none (h : s.txn.tmState = .idle) (hc : isCommand c = true) (hp : p.length ≤ 255)
    (hcfg : ¬ (s.cfg.retries = 0 ∨ s.cfg.timeout = 0)) : executeRefusal c p s = none := by
  rw [executeRefusal, if_neg (not_busy h), if_neg (by simp [hc])]
  exact (if_neg (Nat.not_lt.2 hp)).trans (if_neg hcfg)

theorem exec_execute_refused {r : RefuseReason} (h : executeRefusal c p s = some r) :
    exec (.execute c p) s = .next (refuse (.execute c p) r s) := by
  rw [exec, execExecute, executeOp, h]

theorem exec_execute_accepted (h : executeRefusal c p s = none) :
    exec (.execute c p) s = .next (acceptExecute c p s) := by
  rw [exec, execExecute, executeOp, h]

end

/-- Settles O33: one equation of the acceptance checks for each refusal. -/
theorem executeRefusalsInOrder : Obligations.ExecuteRefusalsInOrder := by
  intro c p s
  simp only [← isCommand_iff, Bool.not_eq_true]
  exact ⟨fun hbusy => exec_execute_refused (executeRefusal_busy hbusy),
    fun hidle hc => exec_execute_refused (executeRefusal_illegal hidle hc),
    fun hidle hc hp => exec_execute_refused (executeRefusal_long hidle hc hp),
    fun hidle hc hp hcfg => exec_execute_refused (executeRefusal_badConfig hidle hc hp hcfg)⟩

/-- Settles O34: no check fails, and `acceptExecute` is the effect of R204. -/
theorem executeCreatesTransaction : Obligations.ExecuteCreatesTransaction := by
  intro c p s hidle hc hp hretries htimeout
  exact exec_execute_accepted (executeRefusal_none hidle ((isCommand_iff c).2 hc) hp (not_or.2 ⟨hretries, htimeout⟩))

/-! ### The engine's steps (R205, R206, R212) -/

theorem engineStep_start {s : State} (h : s.txn.tmState = .start) : engineStep s = .next (startStep s) := by
  rw [engineStep, h]

theorem engineStep_sent {s : State} (h : s.txn.tmState = .sent) : engineStep s = .next (sentStep s) := by
  rw [engineStep, h]

theorem engineStep_backoff {s : State} (h : s.txn.tmState = .backoff) : engineStep s = .next (backoffStep s) := by
  rw [engineStep, h]

/-- In IDLE and in the terminal states the engine performs no step (70_reset_and_hazards.md R320, R324). -/
theorem engineStep_rests {s : State} (h : s.txn.tmState = .idle ∨ s.done = true) : engineStep s = .next s := by
  unfold engineStep
  split
  case h_1 htm | h_2 htm | h_3 htm | h_4 htm => simp [State.done, htm, isTerminal] at h
  all_goals rfl

theorem txWrite_whole {f : List Byte} {s : State}
    (h : s.link.writeAnswer = .all ∨ ∃ n, s.link.writeAnswer = .upTo n ∧ f.length ≤ n) :
    txWrite f s = (.count f.length, linger (s.setLink { s.link with tx := s.link.tx ++ f })) := by
  obtain hall | ⟨n, hn, hlen⟩ := h
  · exact txWrite_all hall f
  · rw [txWrite_upTo hn, List.take_of_length_le hlen]

theorem sendRequest_sends {s u : State}
    (h : txWrite (requestFrame s.req) s = (.count (requestFrame s.req).length, u)) :
    sendRequest s = (u.emit (.frameSent s.req.cmd s.txn.attempt (requestFrame s.req))).setTm .sent := by
  rw [sendRequest, h, if_pos rfl]

theorem sendRequest_fails {s u : State} {a : TxAnswer} (h : txWrite (requestFrame s.req) s = (a, u))
    (ha : a ≠ .count (requestFrame s.req).length) : sendRequest s = failTransport u := by
  rw [sendRequest, h, if_neg ha]

theorem startStep_flushed {s : State} (h : s.link.flushAnswer = .ok) :
    startStep s = sendRequest (linger ((beginAttempt s).setRxq [])) := by
  have hflush : rxFlush (beginAttempt s) = (true, linger ((beginAttempt s).setRxq [])) := rxFlush_ok h
  rw [startStep, hflush, if_pos rfl]

theorem startStep_flush_fails {s : State} {k : Nat} (h : s.link.flushAnswer = .error k) :
    startStep s = failTransport (linger ((beginAttempt s).setRxq (s.link.rxq.drop k))) := by
  have hflush : rxFlush (beginAttempt s) = (false, linger ((beginAttempt s).setRxq (s.link.rxq.drop k))) :=
    rxFlush_error h
  rw [startStep, hflush, if_neg Bool.false_ne_true]

/-- Everything the step in START can do: the attempt is counted and the transport moves, and then the attempt fails or the
frame is reported sent, in which case RXQ is empty. -/
theorem startStep_cases (s : State) :
    ∃ l n, startStep s = failTransport (((beginAttempt s).setLink l).setNow n) ∨
      (l.rxq = [] ∧ startStep s = ((((beginAttempt s).setLink l).setNow n).emit
        (.frameSent s.req.cmd (s.txn.attempt + 1) (requestFrame s.req))).setTm .sent) := by
  obtain ⟨q, hq, hempty⟩ := rxFlush_frame (beginAttempt s)
  obtain ⟨n, hw⟩ := txWrite_frame (requestFrame s.req) (linger ((beginAttempt s).setRxq q))
  unfold startStep
  split
  · next hok =>
    have hreq : (linger ((beginAttempt s).setRxq q)).req = s.req := rfl
    rw [hq, sendRequest, hreq, hw]
    split
    · exact ⟨_, _, .inr ⟨hempty hok, rfl⟩⟩
    · exact ⟨_, _, .inl rfl⟩
  · rw [hq]
    exact ⟨_, _, .inl rfl⟩

/-- The attempt is counted, RXQ is empty, and the whole frame is on the line. -/
theorem startStep_sends {s : State} (hflush : s.link.flushAnswer = .ok)
    (hwrite : s.link.writeAnswer = .all ∨ ∃ n, s.link.writeAnswer = .upTo n ∧ (requestFrame s.req).length ≤ n) :
    startStep s = { s with
      txn := { s.txn with attempt := s.txn.attempt + 1, attRem := s.txn.attRem - 1, tmState := .sent }
      link := { s.link with rxq := [], tx := s.link.tx ++ requestFrame s.req }
      now := s.now + s.lapse + s.lapse
      events := s.events ++
        [.attemptStart s.req.cmd (s.txn.attempt + 1),
          .frameSent s.req.cmd (s.txn.attempt + 1) (requestFrame s.req)] } := by
  have hw := txWrite_whole (s := linger ((beginAttempt s).setRxq [])) hwrite
  have hevents : s.events ++ [.attemptStart s.req.cmd (s.txn.attempt + 1),
      .frameSent s.req.cmd (s.txn.attempt + 1) (requestFrame s.req)] =
      s.events ++ [.attemptStart s.req.cmd (s.txn.attempt + 1)] ++
        [.frameSent s.req.cmd (s.txn.attempt + 1) (requestFrame s.req)] := by simp
  rw [startStep_flushed hflush, hevents]
  exact sendRequest_sends hw

/-- Settles O36. -/
theorem startSendsWholeFrame : Obligations.StartSendsWholeFrame := by
  intro s hstart hflush hwrite
  exact ⟨_, (engineStep_start hstart).trans (congrArg _ (startStep_sends hflush hwrite)), rfl,
    (Nat.le_add_right _ _).trans (Nat.le_add_right _ _)⟩

theorem failTransport_taken (s : State) : FailureTaken transportRecord .transportError s (failTransport s) :=
  takeFailure_taken transportRecord s

theorem failTransport_link (s : State) : (failTransport s).link = s.link :=
  (conclude_kept (.failed transportRecord) s).2.2.1

theorem failTransport_now (s : State) : (failTransport s).now = s.now :=
  (conclude_kept (.failed transportRecord) s).2.2.2

/-- A failure read against the state the attempt began in: until it is taken only the transport and the time have moved. -/
theorem failTransport_taken_from {s u : State} (hu : u = { s with link := u.link, now := u.now }) :
    FailureTaken transportRecord .transportError
      { s with link := (failTransport u).link, now := (failTransport u).now } (failTransport u) := by
  rw [failTransport_link, failTransport_now, ← hu]
  exact failTransport_taken u

/-- Settles O37: the step ends in `failTransport`, after the flush or after the write. -/
theorem startFailsOnTransport : Obligations.StartFailsOnTransport := by
  intro s hstart
  have writeFails (a : TxAnswer) {x : List Byte} (hflush : s.link.flushAnswer = .ok)
      (hw : txWrite (requestFrame s.req) (linger ((beginAttempt s).setRxq [])) = (a, linger
        ((linger ((beginAttempt s).setRxq [])).setLink { s.link with rxq := [], tx := s.link.tx ++ x })))
      (ha : a ≠ .count (requestFrame s.req).length) :
      NextSat (engineStep s) fun t =>
        t.link = { s.link with rxq := [], tx := s.link.tx ++ x } ∧
        FailureTaken transportRecord .transportError
          { beginAttempt s with link := t.link, now := t.now } t :=
    ⟨_, (engineStep_start hstart).trans (congrArg _ ((startStep_flushed hflush).trans (sendRequest_fails hw ha))),
      failTransport_link _, failTransport_taken_from rfl⟩
  refine ⟨fun k herr => ?_, fun n hflush hpart hshort => ?_, fun k hflush herr => ?_⟩
  · exact ⟨_, (engineStep_start hstart).trans (congrArg _ (startStep_flush_fails herr)),
      (congrArg Link.tx (failTransport_link _)).trans rfl, failTransport_taken_from rfl⟩
  · refine writeFails (.count _) hflush (txWrite_upTo (s := linger ((beginAttempt s).setRxq [])) hpart _) ?_
    rw [ne_eq, TxAnswer.count.injEq, List.length_take]
    omega
  · exact writeFails .error hflush (txWrite_error (s := linger ((beginAttempt s).setRxq [])) herr _) nofun

/-- Settles O38. -/
theorem sentArmsDeadline : Obligations.SentArmsDeadline := by
  intro s hsent
  exact ⟨_, engineStep_sent hsent, Nat.le_add_right _ _, rfl, rfl, rfl, rfl, rfl, rfl, rfl, rfl, rfl, rfl, rfl, rfl, rfl,
    rfl, rfl⟩

/-- Settles O39. -/
theorem backoffWaitsThenStarts : Obligations.BackoffWaitsThenStarts := by
  intro s hbackoff
  exact ⟨_, engineStep_backoff hbackoff, Nat.le_add_right _ _, rfl⟩

/-! ### CONSUME (R213, R214) -/

theorem measdec_eq_none {m : Byte} {p : List Byte} (h : p.length < m.toNat ∨ p.length < 40) (ts : Nat) :
    measdec m p ts = none :=
  if_pos h

theorem measdec_eq_some {m : Byte} {p : List Byte} (hm : m.toNat ≤ p.length) (hp : 40 ≤ p.length) (ts : Nat) :
    ∃ r, measdec m p ts = some r :=
  ⟨_, if_neg (not_or.2 ⟨Nat.not_lt.2 hm, Nat.not_lt.2 hp⟩)⟩

theorem consumeOp_completed {s : State} {d : Decoder} (htm : s.txn.tmState = .completed)
    (hd : decoderFor s.cfg s.req.cmd = some d) :
    consumeOp s = .next (((s.answerWith (.outcome (deliver d s))).setTm .idle).draw 1) := by
  simp only [consumeOp, htm, hd]

theorem consumeOp_deviceError {s : State} (htm : s.txn.tmState = .deviceError) :
    consumeOp s = .next ((s.answerWith
      (.outcome (.failed (.deviceError s.res.status (errlookup s.res.status)) (resultContext s)))).setTm .idle) := by
  simp only [consumeOp, htm]

theorem consumeOp_protocolError {s : State} (htm : s.txn.tmState = .protocolError) :
    consumeOp s =
      .next ((s.answerWith (.outcome (.failed (.protocol s.res.kind) (resultContext s)))).setTm .idle) := by
  simp only [consumeOp, htm]

theorem consumeOp_transportError {s : State} (htm : s.txn.tmState = .transportError) :
    consumeOp s =
      .next ((s.answerWith (.outcome (.failed .transportFailure (resultContext s)))).setTm .idle) := by
  simp only [consumeOp, htm]

theorem consumeOp_refused {s : State} (h : s.done = false) : consumeOp s = .next (refuse .consume .notDone s) := by
  unfold consumeOp
  split
  case h_1 htm | h_2 htm | h_3 htm | h_4 htm => simp [State.done, htm, isTerminal] at h
  all_goals rfl

theorem decoderFor_eq {cfg : CfgRegs} {c : Byte} {i : Fin 7} {d : Decoder} (hi : commandIndex c = some i)
    (hd : cfg.decsel[i] = d) : decoderFor cfg c = some d := by
  rw [decoderFor, hi, Option.map_some, hd]

/-- Settles O40: one equation of CONSUME for each terminal state, and in COMPLETED one for each decoder. -/
theorem consumeReturnsOutcome : Obligations.ConsumeReturnsOutcome := by
  intro s p
  refine ⟨fun hlive => ?_, fun i htm hi hd => ?_, fun i htm hi hd => ?_, fun htm hkind => ?_, fun htm => ?_,
    fun htm => ?_⟩
  · refine consumeOp_refused ?_
    cases h : s.txn.tmState <;> simp_all [State.done, isTerminal]
  · exact ⟨_, consumeOp_completed htm (decoderFor_eq hi hd), rfl⟩
  · refine ⟨_, consumeOp_completed htm (decoderFor_eq hi hd), Config.captureTime s.draws, deliver .meas s, rfl,
      fun ⟨hm, hp⟩ => ?_, fun hshort => ?_⟩
    · obtain ⟨r, hr⟩ := measdec_eq_some hm hp (Config.captureTime s.draws)
      refine ⟨r, hr, ?_⟩
      change measdec _ (resultPayload s) _ = _ at hr
      simp only [deliver, hr]
    · have hnone : measdec s.cfg.minMeasLen (resultPayload s) _ = none :=
        measdec_eq_none hshort (Config.captureTime s.draws)
      refine ⟨resultContext s, ?_, rfl, rfl, rfl⟩
      simp only [deliver, hnone]
      rfl
  · refine (consumeOp_deviceError htm).trans ?_
    simp only [resultContext, hkind]
    rfl
  · refine ⟨_, consumeOp_protocolError htm, resultContext s, rfl, rfl, rfl, ?_, ?_, rfl⟩
    · rintro (hk | hk | hk) <;> simp [resultContext, hk]
    · intro hk
      simp [resultContext, hk]
  · exact ⟨_, consumeOp_transportError htm, resultContext s, rfl, rfl, rfl, rfl⟩

end Sys2Proof.Machine
end

section
/-! PROOFS. 43_transaction.md R201, R207, R208, R216, R217: the step in AWAIT is one step of DECODE, which registers an
operation of the host can change, and along which edges of the state diagram a step moves TM_STATE. -/

namespace Sys2Proof.Machine

open Sys2Proof

/-! ### The step in AWAIT (R207) -/

theorem exec_statusInstr (b : Byte) (s : State) : exec (statusInstr b) s = .next (wireByte b s) := by
  unfold statusInstr
  split_ifs
  iterate 7
    next hb =>
      subst hb
      rfl
  rfl

theorem exec_of_decodeEsc {i : Instr} {b : Byte} (h : decodeEsc [Config.ESC, b] = .ok i) (s : State) :
    exec i s = .next (wireEscape b s) := by
  simp only [decodeEsc, ne_eq, not_true_eq_false, if_false] at h
  split_ifs at h with h5E h5D h31 h33 <;> cases h
  · rw [h5E]; rfl
  · rw [h5D]; rfl
  · rw [h31]; rfl
  · rw [h33]; rfl

/-- The operation of the record a byte completes is the arrival of that byte: of a pair the introducer has been read. -/
theorem exec_wireRecord {s : State} {b : Byte} {f : Format} {bs : List Byte} {i : Instr}
    (hawait : s.txn.tmState = .await) (hrec : wireRecord s.dec b = some (f, bs)) (hdec : decode f bs = .ok i) :
    exec i s = .next (wireByte b s) := by
  unfold wireRecord at hrec
  split_ifs at hrec with hstatus hmarker hpair <;> cases hrec
  · cases hdec
    exact exec_statusInstr b s
  · rw [decode, decodeDelim, if_pos hmarker] at hdec
    cases hdec
    rw [hmarker]
    rfl
  · have hon : s.decoding = true := by simp [State.decoding, hawait, hpair.1]
    rw [exec_of_decodeEsc hdec, wireEscape, if_pos hon, if_pos hpair]

/-- Settles O48: a row of the wire that the engine fetches is the arrival of the byte RxByte has answered, and that is what
DECODE makes of the byte. -/
theorem awaitStepIsDecode : Obligations.AwaitStepIsDecode := by
  intro s hawait
  cases hw : fetchWire s with
  | none => exact engineStep_decode hawait hw
  | some p =>
    obtain ⟨i, s'⟩ := p
    obtain ⟨b, f, bs, hb, hrec, hdec⟩ := fetchWire_eq_some hw
    obtain ⟨q, hsound, htime, hq, hread⟩ := rxByte_eq_byte hb
    have hs' : s' = afterRead s q (s.now + 1 + s.lapse) := (fetchWire_state hw).trans hread
    have hon : s.dec.decState ≠ .off := fun hoff => by simp [fetchWire, hoff] at hw
    rw [engineStep_wire hawait hw, exec_decode_byte ⟨hawait, hsound, htime, hq⟩ hon, hs',
      exec_wireRecord (s := afterRead s q _) hawait hrec hdec, wireByte_decoding (s := afterRead s q _) hawait hon]

/-! ### What an operation of the host changes -/

/-- No register of the engine has changed. -/
structure RegsKept (s t : State) : Prop where
  cfg : t.cfg = s.cfg
  req : t.req = s.req
  txn : t.txn = s.txn
  dec : t.dec = s.dec
  res : t.res = s.res

theorem RegsKept.refl (s : State) : RegsKept s s := ⟨rfl, rfl, rfl, rfl, rfl⟩

theorem RegsKept.trans {s t u : State} (h : RegsKept s t) (g : RegsKept t u) : RegsKept s u :=
  ⟨g.cfg.trans h.cfg, g.req.trans h.req, g.txn.trans h.txn, g.dec.trans h.dec, g.res.trans h.res⟩

/-- Everything an operation of the host can do to the registers: nothing, or be accepted in IDLE, return from a terminal
state, or reset the engine. -/
inductive HostEffect (i : Instr) (s t : State) : Prop
  | kept (h : RegsKept s t)
  | accepted (idle : s.txn.tmState = .idle) (target : t.txn.tmState = .idle ∨ t.txn.tmState = .start)
  | consumed (ended : s.done = true) (target : t.txn.tmState = .idle)
  | reset (isReset : i = .reset) (target : t.txn.tmState = .idle)

theorem executeOp_hostEffect (i : Instr) (c : Byte) (p : List Byte) (s : State) : HostEffect i s (executeOp c p s) := by
  obtain ⟨r, -, he⟩ | ⟨hnone, he⟩ := executeOp_cases c p s <;> rw [he]
  · exact .kept ⟨rfl, rfl, rfl, rfl, rfl⟩
  · exact .accepted (executeRefusal_eq_none hnone).1 (.inr rfl)

theorem consumeOp_hostEffect {i : Instr} {s t : State} (h : consumeOp s = .next t) : HostEffect i s t := by
  obtain rfl | ⟨hdone, a, n, rfl⟩ := consumeOp_next h
  · exact .kept ⟨rfl, rfl, rfl, rfl, rfl⟩
  · exact .consumed hdone rfl

theorem execCfgwrite_hostEffect {i : Instr} {w : CfgWrite} {s t : State} (h : execCfgwrite w s = .next t) :
    HostEffect i s t := by
  by_cases hidle : s.txn.tmState = .idle
  · rw [execCfgwrite_idle hidle] at h
    cases h
    exact .accepted hidle (.inl hidle)
  · rw [execCfgwrite_busy hidle] at h
    cases h
    exact .kept ⟨rfl, rfl, rfl, rfl, rfl⟩

/-- The operations of the host port are the REQ and the OP rows (30_encoding.md R106; log 2). -/
theorem hostInstr_format {r : HostRecord} {i : Instr} (h : hostInstr r = .ok i) :
    (encode i).1 = .req ∨ (encode i).1 = .op := by
  cases r with
  | op bs => exact .inr (congrArg Prod.fst (encodeOfDecode .op bs i h).2)
  | req bs =>
    rw [hostInstr] at h
    split at h
    · cases h; exact .inr rfl
    · exact .inl (congrArg Prod.fst (encodeOfDecode .req bs i h).2)

theorem exec_hostEffect {i : Instr} {s t : State} (hformat : (encode i).1 = .req ∨ (encode i).1 = .op)
    (hi : i ≠ .decode) (h : exec i s = .next t) : HostEffect i s t := by
  obtain ⟨a, rfl⟩ | ⟨c, p, rfl⟩ | ⟨-, hc⟩ | ⟨w, -, hw⟩ | ⟨hreset, hr⟩ | ⟨hwire, -⟩ | ⟨hwire, -⟩ | ⟨hd, -⟩ |
    ⟨-, hx⟩ | ⟨x, -, rfl⟩ | ⟨-, rfl⟩ := exec_cases h
  · exact .kept ⟨rfl, rfl, rfl, rfl, rfl⟩
  · exact executeOp_hostEffect i c p s
  · exact consumeOp_hostEffect hc
  · exact execCfgwrite_hostEffect hw
  · cases hr
    exact .reset hreset rfl
  · obtain hw | hw := hwire <;> simp [hw] at hformat
  · simp [hwire] at hformat
  · exact absurd hd hi
  · obtain ⟨q, n, -, hrx⟩ := rxByte_frame s
    obtain ⟨a, rfl⟩ | rfl := hx
    · rw [hrx]; exact .kept ⟨rfl, rfl, rfl, rfl, rfl⟩
    · exact .kept ⟨rfl, rfl, rfl, rfl, rfl⟩
  · obtain ⟨n, hw⟩ := txWrite_frame x s
    generalize (txWrite x s).1 = a
    rw [hw]; exact .kept ⟨rfl, rfl, rfl, rfl, rfl⟩
  · obtain ⟨q, hq, -⟩ := rxFlush_frame s
    generalize (rxFlush s).1 = a
    rw [hq]; exact .kept ⟨rfl, rfl, rfl, rfl, rfl⟩

/-- Everything a step can do to the registers: nothing, what an operation of the host does, or what the engine's step
does. -/
inductive StepRegs (s t : State) : Prop
  | kept (h : RegsKept s t)
  | host {r : HostRecord} {rest : List HostRecord} {i : Instr} {u : State} (turn : (nextTurn s).1 = .host)
    (presented : s.hostq = r :: rest) (instr : hostInstr r = .ok i) (before : RegsKept s u)
    (effect : HostEffect i u t)
  | engine {ts : List Turn} (turn : (nextTurn s).1 = .engine) (step : engineStep (s.setTurns ts) = .next t)

theorem step_regs {s t : State} (h : step s = .next t) : StepRegs s t := by
  obtain ⟨ts, hmove⟩ := step_cases h
  obtain ⟨-, -, rfl⟩ | ⟨hhost, r, rest, i, hq, hi, ⟨hne, he⟩ | ⟨-, rfl⟩⟩ | ⟨hengine, he⟩ | ⟨bs, -, rfl⟩ |
    ⟨f, w, b, -, rfl⟩ | ⟨n, l, -, rfl⟩ := hmove
  · exact .kept ⟨rfl, rfl, rfl, rfl, rfl⟩
  · have heffect := exec_hostEffect (hostInstr_format hi) hne he
    exact .host (u := (s.setTurns ts).setHostq rest) hhost hq hi ⟨rfl, rfl, rfl, rfl, rfl⟩ heffect
  · exact .kept ⟨rfl, rfl, rfl, rfl, rfl⟩
  · exact .engine hengine he
  · exact .kept ⟨rfl, rfl, rfl, rfl, rfl⟩
  · exact .kept ⟨rfl, rfl, rfl, rfl, rfl⟩
  · exact .kept ⟨rfl, rfl, rfl, rfl, rfl⟩

/-! ### The edges of the state diagram (R201) -/

@[simp] theorem isEdge_refl (x : TmState) : isEdge x x = true := by cases x <;> rfl

theorem isEdge_idle_of_terminal {x : TmState} (h : isTerminal x = true) : isEdge x .idle = true := by
  cases x <;> revert h <;> decide

theorem failTransport_tm (s : State) : (failTransport s).txn.tmState = .transportError :=
  congrArg TxnRegs.tmState (failTransport_taken s).txn

theorem startStep_tm (s : State) :
    (startStep s).txn.tmState = .sent ∨ (startStep s).txn.tmState = .transportError := by
  obtain ⟨l, n, h | ⟨-, h⟩⟩ := startStep_cases s <;> rw [h]
  · exact .inr (failTransport_tm _)
  · exact .inl rfl

theorem takeFailure_tm (f : FailRec) (s : State) :
    (takeFailure f s).txn.tmState = failureTarget f.kind s.txn.attRem :=
  congrArg TxnRegs.tmState (takeFailure_taken f s).txn

theorem takeFrame_tm (f : Frame) (s : State) : (takeFrame f s).txn.tmState = .completed := by
  rw [takeFrame_eq]

theorem isEdge_failureTarget (k : Kind) (attRem : Byte) : isEdge .await (failureTarget k attRem) = true := by
  unfold failureTarget
  split
  · rfl
  · rfl
  · split <;> rfl

/-- Every edge out of AWAIT is the classification of a result (R207 to R211). -/
theorem isEdge_conclude (r : DecResult) (s : State) : isEdge .await (conclude r s).txn.tmState = true := by
  cases r with
  | frame f => rw [conclude, takeFrame_tm]; rfl
  | failed f => rw [conclude, takeFailure_tm]; exact isEdge_failureTarget _ _

theorem isEdge_receive {s : State} (h : s.txn.tmState = .await) (a : Option RxAnswer) :
    isEdge .await (receive a s).txn.tmState = true := by
  cases a with
  | none => rw [receive_none, h]; rfl
  | some a =>
    rw [receive_some, receiveAnswer, settle]
    split
    · rw [State.setDec_txn, h]; rfl
    · exact isEdge_conclude _ _

/-- The engine's step in AWAIT applies one answer of RxByte. -/
theorem engineStep_await_next {s t : State} (hawait : s.txn.tmState = .await) (h : engineStep s = .next t) :
    t = receive (rxByte s).1 (rxByte s).2 := by
  rw [awaitStepIsDecode s hawait] at h
  obtain ⟨hne, -⟩ | ⟨-, ht⟩ := decodeStep_next h
  · exact absurd hawait hne
  · exact ht

theorem engineStep_edge {s t : State} (h : engineStep s = .next t) : isEdge s.txn.tmState t.txn.tmState = true := by
  cases htm : s.txn.tmState with
  | start =>
    rw [engineStep_start htm] at h
    cases h
    obtain ht | ht := startStep_tm s <;> rw [ht] <;> rfl
  | sent =>
    rw [engineStep_sent htm] at h
    cases h
    rfl
  | await =>
    obtain ⟨q, n, -, hrx⟩ := rxByte_frame s
    rw [engineStep_await_next htm h]
    exact isEdge_receive (by rw [hrx]; exact htm) _
  | backoff =>
    rw [engineStep_backoff htm] at h
    cases h
    rfl
  | idle | completed | deviceError | protocolError | transportError =>
    rw [engineStep_rests (by simp [State.done, htm, isTerminal])] at h
    cases h
    rw [htm, isEdge_refl]

theorem HostEffect.edge {i : Instr} {s t : State} (h : HostEffect i s t) :
    isEdge s.txn.tmState t.txn.tmState = true ∨ (i = .reset ∧ t.txn.tmState = .idle) := by
  cases h with
  | kept h => exact .inl (by rw [h.txn, isEdge_refl])
  | accepted idle target => obtain ht | ht := target <;> exact .inl (by rw [idle, ht]; rfl)
  | consumed ended target => exact .inl (by rw [target]; exact isEdge_idle_of_terminal ended)
  | reset isReset target => exact .inr ⟨isReset, target⟩

/-- Operations are accepted in IDLE and in the terminal states; in every other state only a RESET changes a register. -/
theorem HostEffect.kept_of_live {i : Instr} {s t : State} (h : HostEffect i s t)
    (hlive : s.txn.tmState ∈ [TmState.start, .sent, .await, .backoff]) : i = .reset ∨ RegsKept s t := by
  cases h with
  | kept h => exact .inr h
  | accepted idle => simp [idle] at hlive
  | consumed ended => cases htm : s.txn.tmState <;> simp [State.done, htm, isTerminal] at ended hlive
  | reset isReset => exact .inl isReset

/-- Settles O52: a step that does not keep the registers is an operation of the host or a step of the engine, and each of
their effects is an edge of the diagram or a RESET. -/
theorem onlyDiagramTransitions : Obligations.OnlyDiagramTransitions := by
  refine ⟨fun s t hstep => ?_, fun s t hlive hhost hstep => ?_⟩
  · cases step_regs hstep with
    | kept h => exact .inl (by rw [h.txn, isEdge_refl])
    | @host r rest i u turn presented instr before effect =>
      refine (before.txn ▸ effect.edge).imp id ?_
      rintro ⟨rfl, hidle⟩
      exact ⟨⟨turn, r, rest, presented, instr⟩, hidle⟩
    | @engine ts turn step => exact .inl (engineStep_edge (s := s.setTurns ts) step)
  · cases step_regs hstep with
    | kept h => exact .inr ⟨h.txn, h.dec, h.res, h.cfg, h.req⟩
    | @host r rest i u turn presented instr before effect =>
      obtain rfl | hkept := effect.kept_of_live (before.txn ▸ hlive)
      · exact .inl ⟨turn, r, rest, presented, instr⟩
      · have h := before.trans hkept
        exact .inr ⟨h.txn, h.dec, h.res, h.cfg, h.req⟩
    | engine turn => simp [turn] at hhost

/-! ### The way into COMPLETED (R208, R216) -/

/-- Only the marker in D_BODY gives a frame (42_frame_codec.md R171). -/
theorem decodeByte_frame {ea ec b : Byte} {d d' : DecRegs} {f : Frame}
    (h : decodeByte ea ec b d = (d', some (.frame f))) :
    d.decState = .body ∧ b = Config.MARKER ∧ validateRegion (closeRegion d) = .frame f := by
  unfold decodeByte at h
  split at h
  case h_1 | h_2 | h_5 => cases h
  case h_3 | h_4 | h_6 => split at h <;> cases h
  case h_7 hbody =>
    split at h
    · next hb => exact ⟨hbody, hb, Option.some.inj (Prod.mk.inj h).2⟩
    · cases h

theorem applyAnswer_frame {ea ec : Byte} {a : RxAnswer} {d d' : DecRegs} {f : Frame}
    (h : applyAnswer ea ec a d = (d', some (.frame f))) :
    a = .byte Config.MARKER ∧ d.decState = .body ∧ validateRegion (closeRegion d) = .frame f := by
  cases a with
  | byte b =>
    obtain ⟨hbody, rfl, hf⟩ := decodeByte_frame h
    exact ⟨rfl, hbody, hf⟩
  | timeout | error => cases h

theorem failureTarget_ne_completed (k : Kind) (attRem : Byte) : failureTarget k attRem ≠ .completed := by
  unfold failureTarget
  split
  · nofun
  · nofun
  · split <;> nofun

/-- An answer that completes the transaction is the marker behind a region that validates. -/
theorem receive_completed {s : State} {a : Option RxAnswer} (hawait : s.txn.tmState = .await)
    (h : (receive a s).txn.tmState = .completed) :
    ∃ f, a = some (.byte Config.MARKER) ∧ s.dec.decState = .body ∧ validateRegion (closeRegion s.dec) = .frame f ∧
      (receive a s).res.pay = f.payload ∧ (receive a s).res.kind = .none := by
  cases a with
  | none => simp [hawait] at h
  | some a =>
    rw [receive_some] at h ⊢
    cases hp : applyAnswer s.txn.expAddr s.txn.expCmd a s.dec with
    | mk d r =>
      match r with
      | none => simp [receiveAnswer_none hp, hawait] at h
      | some (.failed f) =>
        rw [receiveAnswer_some hp, conclude, takeFailure_tm] at h
        exact absurd h (failureTarget_ne_completed _ _)
      | some (.frame f) =>
        obtain ⟨rfl, hbody, hf⟩ := applyAnswer_frame hp
        exact ⟨f, rfl, hbody, hf, by simp [receiveAnswer_some hp, conclude, takeFrame_eq]⟩

/-- A step into COMPLETED is the engine's, in AWAIT: no other edge leads there. -/
theorem step_into_completed {s t : State} (h : step s = .next t) (ht : t.txn.tmState = .completed)
    (hs : s.txn.tmState ≠ .completed) :
    s.txn.tmState = .await ∧ ∃ ts, engineStep (s.setTurns ts) = .next t := by
  cases step_regs h with
  | kept h => exact absurd (h.txn ▸ ht) hs
  | @host r rest i u turn presented instr before effect =>
    cases effect with
    | kept h => exact absurd ((before.trans h).txn ▸ ht) hs
    | accepted _ target => obtain h | h := target <;> simp [h] at ht
    | consumed _ target | reset _ target => simp [target] at ht
  | @engine ts turn step =>
    refine ⟨?_, ts, step⟩
    have hedge := engineStep_edge step
    rw [ht, State.setTurns_txn] at hedge
    cases htm : s.txn.tmState <;> simp [htm, isEdge] at hedge hs ⊢

/-- Settles O56: the step is the engine's in AWAIT, its answer of RxByte the closing marker, and the invariant says what the
header bytes are in D_BODY. -/
theorem completedOnlyByValidatedFrame : Obligations.CompletedOnlyByValidatedFrame := by
  intro s t hcons hstep ht hs
  obtain ⟨hawait, ts, hengine⟩ := step_into_completed hstep ht hs
  have hnext := engineStep_await_next (s := s.setTurns ts) hawait hengine
  obtain ⟨q, n, -, hrx⟩ := rxByte_frame (s.setTurns ts)
  rw [hrx] at hnext
  subst hnext
  obtain ⟨f, ha, hbody, hf, hpay, hkind⟩ := receive_completed (s := ((s.setTurns ts).setRxq q).setNow n) hawait ht
  obtain ⟨q', hsound, htime, hq, -⟩ := rxByte_eq_byte ha
  have hbody : s.dec.decState = .body := hbody
  have hlive : LiveInv s := hcons.liveInv (by simp [hawait])
  have haddr : s.dec.rxAddr = s.txn.expAddr := hcons.header.addrMatches (by simp [hbody])
  have hcmd : s.dec.rxCmd = s.txn.expCmd := hcons.header.cmdMatches (by simp [hbody])
  exact ⟨hawait, hbody, haddr.trans hlive.expAddr, hcmd.trans hlive.expCmd, hcons.header.bodyStatus hbody,
    ⟨q', hawait, hsound, htime, hq⟩, f, hf, hpay, hkind⟩

end Sys2Proof.Machine
end

section
/-! PROOFS. 43_transaction.md R215: every transaction ends, and how it ends when the device never sends a marker. -/

namespace Sys2Proof.Machine

open Sys2Proof

/-! ### Reachability -/

/-- Some number of steps, all of them without fault or refusal, leads from `s` to `t`. -/
def Reaches (s t : State) : Prop := ∃ k, Host.Core.run core k s = .next t

theorem Reaches.refl (s : State) : Reaches s s := ⟨0, rfl⟩

theorem Reaches.trans {s t u : State} (h : Reaches s t) (g : Reaches t u) : Reaches s u := by
  obtain ⟨j, hj⟩ := h
  obtain ⟨k, hk⟩ := g
  exact ⟨j + k, run_add hj hk⟩

theorem Reaches.head {s t u : State} (h : step s = .next t) (g : Reaches t u) : Reaches s u := by
  obtain ⟨k, hk⟩ := g
  exact ⟨k + 1, (run_next h k).trans hk⟩

/-- What every step keeps holds of all that is reached. -/
theorem Reaches.invariant {P : State → Prop} (hstep : ∀ s t, P s → step s = .next t → P t) {s t : State}
    (h : Reaches s t) (hs : P s) : P t := by
  obtain ⟨k, hk⟩ := h
  induction k generalizing s with
  | zero => cases hk; exact hs
  | succ k ih =>
    obtain ⟨s', hs', hr⟩ := run_succ_next hk
    exact ih (hstep s s' hs hs') hr

/-! ### Steps with no operation presented -/

/-- Everything a step can do when the host has presented nothing: the move is taken, and it is the engine's or touches
RXQ, the transport's way of answering or the time alone. -/
inductive UnattendedStep (s : State) : State → Prop
  | host : UnattendedStep s (s.setTurns s.turns.tail)
  | engine {t : State} (step : engineStep (s.setTurns s.turns.tail) = .next t) : UnattendedStep s t
  | device {bs : List Byte} (listed : .device bs ∈ s.turns) :
    UnattendedStep s ((s.setTurns s.turns.tail).setRxq (s.link.rxq ++ bs))
  | transport {f : FlushAnswer} {w : WriteAnswer} {b : Bool} (listed : .transport f w b ∈ s.turns) :
    UnattendedStep s ((s.setTurns s.turns.tail).setLink { s.link with flushAnswer := f, writeAnswer := w, broken := b })
  | clock (n l : Nat) : UnattendedStep s (((s.setTurns s.turns.tail).setNow (s.now + n)).setLapse l)

theorem step_unattended {s t : State} (hq : s.hostq = []) (h : step s = .next t) : UnattendedStep s t := by
  cases hts : s.turns with
  | nil =>
    have hself : s.setTurns s.turns.tail = s := by rw [hts, List.tail_nil, ← hts, State.setTurns_self]
    by_cases hactive : s.active = true
    · rw [step_active hts hactive] at h
      exact .engine (hself.symm ▸ h)
    · rw [step_inactive hts (by simpa using hactive), hostStep, hq] at h
      cases h
      have htaken : UnattendedStep s (s.setTurns s.turns.tail) := .host
      rwa [hself] at htaken
  | cons m ts =>
    have htail : s.turns.tail = ts := by rw [hts, List.tail_cons]
    have hm : m ∈ s.turns := by rw [hts]; exact List.mem_cons_self
    subst htail
    cases m with
    | host =>
      rw [step_host hts, hostStep, State.setTurns_hostq, hq] at h
      cases h
      exact .host
    | engine => exact .engine (step_engine hts ▸ h)
    | device bs =>
      rw [step_device hts] at h
      cases h
      exact .device hm
    | transport f w b =>
      rw [step_transport hts] at h
      cases h
      exact .transport hm
    | clock n l =>
      rw [step_clock hts] at h
      cases h
      exact .clock n l

/-- The engine presents no operation and lists no move. -/
structure PortsKept (s t : State) : Prop where
  hostq : t.hostq = s.hostq
  turns : t.turns = s.turns

theorem PortsKept.trans {s t u : State} (h : PortsKept s t) (g : PortsKept t u) : PortsKept s u :=
  ⟨g.hostq.trans h.hostq, g.turns.trans h.turns⟩

theorem failTransport_portsKept (s : State) : PortsKept s (failTransport s) := by
  obtain ⟨-, -, -, -, -, hhostq, hturns, -⟩ := (failTransport_taken s).kept
  exact ⟨hhostq, hturns⟩

theorem startStep_portsKept (s : State) : PortsKept s (startStep s) := by
  obtain ⟨l, n, h | ⟨-, h⟩⟩ := startStep_cases s <;> rw [h]
  · exact { failTransport_portsKept (((beginAttempt s).setLink l).setNow n) with }
  · exact ⟨rfl, rfl⟩

theorem engineStep_portsKept {s t : State} (h : engineStep s = .next t) : PortsKept s t := by
  cases htm : s.txn.tmState with
  | start =>
    rw [engineStep_start htm] at h
    cases h
    exact startStep_portsKept s
  | sent =>
    rw [engineStep_sent htm] at h
    cases h
    exact ⟨rfl, rfl⟩
  | await =>
    have hframe := decodeStep_wireFrame (awaitStepIsDecode s htm ▸ h)
    exact ⟨hframe.hostq, hframe.turns⟩
  | backoff =>
    rw [engineStep_backoff htm] at h
    cases h
    exact ⟨rfl, rfl⟩
  | idle | completed | deviceError | protocolError | transportError =>
    rw [engineStep_rests (by simp [State.done, htm, isTerminal])] at h
    cases h
    exact ⟨rfl, rfl⟩

/-- Only CONSUME and RESET end a transaction (R213, 70_reset_and_hazards.md R320). -/
theorem engineStep_busy {s t : State} (hbusy : s.busy = true) (h : engineStep s = .next t) : t.busy = true := by
  rw [busy_iff] at hbusy ⊢
  intro hidle
  by_cases hdone : s.done = true
  · rw [engineStep_rests (.inr hdone)] at h
    cases h
    exact hbusy hidle
  · have hedge := engineStep_edge h
    rw [hidle] at hedge
    cases htm : s.txn.tmState <;> simp_all [State.done, isTerminal, isEdge]

/-- A transaction is live or over, and the host has presented nothing. -/
structure Unattended (s : State) : Prop where
  consistent : Consistent s
  busy : s.busy = true
  hostq : s.hostq = []

theorem Unattended.after_step {s t : State} (h : Unattended s) (hstep : step s = .next t) :
    Unattended t ∧ t.turns = s.turns.tail := by
  have hcons := stepKeepsInvariant s t h.consistent hstep
  cases step_unattended h.hostq hstep with
  | engine hengine =>
    obtain ⟨hhostq, hturns⟩ := engineStep_portsKept hengine
    exact ⟨⟨hcons, engineStep_busy (s := s.setTurns s.turns.tail) h.busy hengine, hhostq.trans h.hostq⟩, hturns⟩
  | host | device | transport | clock => exact ⟨⟨hcons, h.busy, h.hostq⟩, rfl⟩

theorem engineStep_goes_on {s : State} (h : Consistent s) : ∃ t, engineStep s = .next t := by
  cases htm : s.txn.tmState with
  | start => exact ⟨_, engineStep_start htm⟩
  | sent => exact ⟨_, engineStep_sent htm⟩
  | await => exact ⟨_, (awaitStepIsDecode s htm).trans (decodeStep_await htm (h.decodeRuns.2 htm))⟩
  | backoff => exact ⟨_, engineStep_backoff htm⟩
  | idle | completed | deviceError | protocolError | transportError =>
    exact ⟨_, engineStep_rests (by simp [State.done, htm, isTerminal])⟩

/-- No step faults or is refused: the invariant gives the engine a step, and there is no record to refuse. -/
theorem Unattended.goes_on {s : State} (h : Unattended s) : ∃ t, step s = .next t := by
  obtain ⟨ts, hts⟩ := nextTurn_frame s
  unfold step
  rw [hts]
  cases (nextTurn s).1 with
  | host => exact ⟨_, by rw [hostStep, State.setTurns_hostq, h.hostq]⟩
  | engine => exact engineStep_goes_on h.consistent.congr
  | device | transport | clock => exact ⟨_, rfl⟩

/-! ### The counters of a live transaction -/

/-- The attempts are used up exactly when ATTEMPT has reached CFG_RETRIES. -/
theorem LiveInv.attRem_eq_zero_iff {s : State} (h : LiveInv s) : s.txn.attRem = 0 ↔ s.txn.attempt = s.cfg.retries := by
  have hsum := h.attempts
  constructor <;> intro heq <;> rw [heq] at hsum <;> exact BitVec.eq_of_toNat_eq (by simpa using hsum)

/-- START counts an attempt without a wrap (41_checksum.md R155; log 28). -/
theorem LiveInv.counts_attempt {s : State} (h : LiveInv s) (hstart : s.txn.tmState = .start) :
    (s.txn.attempt + 1).toNat = s.txn.attempt.toNat + 1 ∧ (s.txn.attRem - 1).toNat + 1 = s.txn.attRem.toNat := by
  have hdue : s.txn.attRem ≠ 0 := h.attemptDue (.inl hstart)
  have hsum := h.attempts
  have hretries := s.cfg.retries.isLt
  constructor <;> bv_omega

/-! ### The end of a transaction with no move listed -/

/-- How far the stage of an attempt is from the end of the attempt. -/
def stagesLeft : TmState → Nat
  | .sent => 3
  | .await => 2
  | .backoff => 1
  | _ => 0

/-- What is left to do when no agent but the engine moves: the stages of this attempt, the attempts after it, and the bytes
that wait. -/
def workLeft (s : State) : Nat := 4 * s.txn.attRem.toNat + stagesLeft s.txn.tmState + s.link.rxq.length

theorem conclude_ne_await (r : DecResult) (s : State) : (conclude r s).txn.tmState ≠ .await := by
  cases r with
  | frame f => rw [conclude, takeFrame_tm]; nofun
  | failed f => rw [conclude, takeFailure_tm]; exact (failureTarget_leaves _ _).1

theorem rxByte_rxq_le (s : State) : (rxByte s).2.link.rxq.length ≤ s.link.rxq.length := by
  obtain ⟨-, hrx⟩ | ⟨-, -, hrx⟩ | ⟨b, q, -, -, hq, hrx⟩ | ⟨-, -, -, -, hrx⟩ | ⟨-, -, -, -, hrx⟩ := rxByte_cases s <;>
    rw [hrx]
  case inr.inr.inl => rw [hq]; exact Nat.le_succ _
  all_goals exact le_rfl

/-- In AWAIT the answer ends the decode, or it was a byte, which is gone from RXQ. -/
theorem receive_shortens {s : State} (hts : s.turns = []) :
    (receive (rxByte s).1 (rxByte s).2).txn.tmState ≠ .await ∨
      (receive (rxByte s).1 (rxByte s).2).link.rxq.length < s.link.rxq.length := by
  have stalls {a : RxAnswer} {k : Kind} (u : State) (ha : ∀ ea ec d, applyAnswer ea ec a d = decEnd d (stalled k d)) :
      (receive (some a) u).txn.tmState ≠ .await := by
    rw [receive_some, receiveAnswer_some (ha _ _ _)]
    exact conclude_ne_await _ _
  obtain ⟨-, hrx⟩ | ⟨-, -, hrx⟩ | ⟨b, q, -, -, hq, hrx⟩ | ⟨-, -, -, -, hrx⟩ | ⟨-, -, -, hne, -⟩ := rxByte_cases s
  · rw [hrx]; exact .inl (stalls (k := .transport) _ fun _ _ _ => rfl)
  · rw [hrx]; exact .inl (stalls (k := .timeout) _ fun _ _ _ => rfl)
  · rw [hrx, (receive_kept _ _).2.2.1, hq]
    exact .inr (Nat.lt_succ_self _)
  · rw [hrx]; exact .inl (stalls (k := .timeout) _ fun _ _ _ => rfl)
  · exact absurd hts hne

/-- The engine's step ends the transaction or leaves less to do. -/
theorem engineStep_works {s t : State} (h : Consistent s) (hactive : s.active = true) (hts : s.turns = [])
    (hstep : engineStep s = .next t) : t.done = true ∨ workLeft t < workLeft s := by
  cases htm : s.txn.tmState with
  | start =>
    obtain ⟨-, hleft⟩ := (h.liveInv (by simp [htm])).counts_attempt htm
    rw [engineStep_start htm] at hstep
    cases hstep
    obtain ⟨l, n, hfail | ⟨hempty, hsent⟩⟩ := startStep_cases s
    · exact .inl (by rw [hfail, State.done, failTransport_tm]; rfl)
    · have hrem : (startStep s).txn.attRem = s.txn.attRem - 1 := by rw [hsent]; rfl
      have hrxq : (startStep s).link.rxq = [] := by rw [hsent]; exact hempty
      have htm' : (startStep s).txn.tmState = .sent := by rw [hsent]; rfl
      simp only [workLeft, hrem, hrxq, htm, htm', stagesLeft, List.length_nil]
      omega
  | sent =>
    rw [engineStep_sent htm] at hstep
    cases hstep
    exact .inr (by simp [workLeft, sentStep, delay, htm, stagesLeft])
  | await =>
    have hedge := engineStep_edge hstep
    have hframe := decodeStep_wireFrame (awaitStepIsDecode s htm ▸ hstep)
    have hrem : t.txn.attRem = s.txn.attRem := by rw [hframe.txn]
    have hrx := rxByte_rxq_le s
    have hlink : t.link = (rxByte s).2.link := by rw [engineStep_await_next htm hstep, (receive_kept _ _).2.2.1]
    have hshort := receive_shortens hts
    rw [← engineStep_await_next htm hstep] at hshort
    rw [htm] at hedge
    simp only [workLeft, hrem, htm, hlink]
    cases ht : t.txn.tmState <;> simp only [ht, isEdge, Bool.false_eq_true] at hedge
    case await =>
      rw [hlink] at hshort
      have := hshort.resolve_left (not_not.2 ht)
      exact .inr (by omega)
    case backoff => exact .inr (by simp only [stagesLeft]; omega)
    all_goals exact .inl (by rw [State.done, ht]; rfl)
  | backoff =>
    rw [engineStep_backoff htm] at hstep
    cases hstep
    exact .inr (by simp [workLeft, backoffStep, delay, htm, stagesLeft])
  | idle | completed | deviceError | protocolError | transportError =>
    simp [State.active, State.busy, State.done, htm, isTerminal] at hactive

theorem reaches_done_of_no_turns {s : State} (h : Unattended s) (hts : s.turns = []) :
    ∃ t, Reaches s t ∧ t.done = true := by
  induction hw : workLeft s using Nat.strong_induction_on generalizing s with
  | _ n ih =>
    by_cases hdone : s.done = true
    · exact ⟨s, .refl s, hdone⟩
    · have hactive : s.active = true := by simp [State.active, h.busy, hdone]
      obtain ⟨t, hstep⟩ := h.goes_on
      obtain ⟨ht, hturns⟩ := h.after_step hstep
      obtain hdone' | hless := engineStep_works h.consistent hactive hts (step_active hts hactive ▸ hstep)
      · exact ⟨t, .head hstep (.refl t), hdone'⟩
      · obtain ⟨u, hu, hdone'⟩ := ih (workLeft t) (hw ▸ hless) ht (by rw [hturns, hts, List.tail_nil]) rfl
        exact ⟨u, .head hstep hu, hdone'⟩

/-- Once the listed moves are taken the engine is alone, and its steps end the transaction. -/
theorem Unattended.reaches_done {s : State} (h : Unattended s) : ∃ t, Reaches s t ∧ t.done = true := by
  induction hts : s.turns generalizing s with
  | nil => exact reaches_done_of_no_turns h hts
  | cons m ts ih =>
    obtain ⟨t, hstep⟩ := h.goes_on
    obtain ⟨ht, hturns⟩ := h.after_step hstep
    obtain ⟨u, hu, hdone⟩ := ih ht (by rw [hturns, hts, List.tail_cons])
    exact ⟨u, .head hstep hu, hdone⟩

/-- Settles O58: with nothing presented no step leaves the transaction, and each takes a listed move or does part of the
work left. -/
theorem everyTransactionEnds : Obligations.EveryTransactionEnds := by
  intro s hcons hbusy hq
  obtain ⟨t, ⟨k, hk⟩, hdone⟩ := Unattended.reaches_done ⟨hcons, hbusy, hq⟩
  exact ⟨k, t, hk, hdone⟩

end Sys2Proof.Machine
end

section
/-! PROOFS. 43_transaction.md R215: the transaction with a device that never sends a marker. -/

namespace Sys2Proof.Machine

open Sys2Proof

/-- What the run of the transaction that began in `s₀` keeps while the transport is sound and no marker is sent: every
attempt so far has written the one request frame, and a decode stays in D_HUNT. -/
structure Silent (s₀ s : State) : Prop where
  unattended : Unattended s
  cfg : s.cfg = s₀.cfg
  req : s.req = s₀.req
  flush : s.link.flushAnswer = .ok
  write : s.link.writeAnswer = .all
  sound : s.link.broken = false
  quiet : ∀ m ∈ s.turns, NoMarkerTurn m
  tx : s.link.tx = s₀.link.tx ++ (List.replicate s.txn.attempt.toNat (requestFrame s₀.req)).flatten
  state : s.txn.tmState ∈ [TmState.start, .sent, .await, .backoff, .protocolError]
  rxq : s.txn.tmState = .sent ∨ s.txn.tmState = .await → Config.MARKER ∉ s.link.rxq
  hunts : s.txn.tmState = .await → s.dec.decState = .hunt
  timedOut : s.txn.tmState = .protocolError → s.res.kind = .timeout ∧ s.res.step = .hunt

section

variable {s₀ s t : State}

/-- A move that is not the engine's keeps all of it but for the bytes it brings. -/
theorem Silent.move (h : Silent s₀ s) (ht : Unattended t) (hturns : ∀ m ∈ t.turns, m ∈ s.turns)
    (hregs : RegsKept s t) (hlink : t.link = { s.link with rxq := t.link.rxq })
    (hrxq : Config.MARKER ∉ s.link.rxq → Config.MARKER ∉ t.link.rxq) : Silent s₀ t := by
  obtain ⟨hcfg, hreq, htxn, hdec, hres⟩ := hregs
  obtain ⟨-, cfg, req, flush, write, sound, quiet, tx, state, rxq, hunts, timedOut⟩ := h
  exact
    { unattended := ht
      cfg := hcfg.trans cfg
      req := hreq.trans req
      flush := by rw [hlink]; exact flush
      write := by rw [hlink]; exact write
      sound := by rw [hlink]; exact sound
      quiet := fun m hm => quiet m (hturns m hm)
      tx := by rw [hlink, htxn]; exact tx
      state := htxn ▸ state
      rxq := fun htm => hrxq (rxq (htxn ▸ htm))
      hunts := fun htm => by rw [hdec]; exact hunts (htxn ▸ htm)
      timedOut := fun htm => by rw [hres]; exact timedOut (htxn ▸ htm) }

theorem Silent.start_step (h : Silent s₀ s) (htm : s.txn.tmState = .start) (ht : Unattended (startStep s)) :
    Silent s₀ (startStep s) := by
  obtain ⟨hnext, -⟩ := (h.unattended.consistent.liveInv (by simp [htm])).counts_attempt htm
  have hstep := startStep_sends h.flush (.inl h.write)
  rw [hstep] at ht ⊢
  exact
    { unattended := ht
      cfg := h.cfg, req := h.req, flush := h.flush, write := h.write, sound := h.sound, quiet := h.quiet
      tx := by
        show s.link.tx ++ requestFrame s.req =
          s₀.link.tx ++ (List.replicate (s.txn.attempt + 1).toNat (requestFrame s₀.req)).flatten
        rw [hnext, List.replicate_succ', List.flatten_append, ← List.append_assoc, h.tx, h.req, List.flatten_singleton]
      state := by simp
      rxq := fun _ => by simp
      hunts := nofun
      timedOut := nofun }

theorem Silent.await_step (h : Silent s₀ s) (htm : s.txn.tmState = .await) (hstep : exec .decode s = .next t)
    (ht : Unattended t) : Silent s₀ t := by
  have hhunt := h.hunts htm
  have hon : s.dec.decState ≠ .off := by simp [hhunt]
  have timesOut (hover : s.txn.deadline ≤ s.now ∨ (s.link.rxq = [] ∧ s.turns = [])) : Silent s₀ t := by
    obtain ⟨t', hexec, -, hlink, -, htaken⟩ := deadlineEndsDecode s htm hon h.sound hover
    obtain rfl : t' = t := by rw [hexec] at hstep; exact Host.Outcome.next.inj hstep
    obtain ⟨hcfg, hreq, -, -, -, -, hturns, -⟩ := htaken.kept
    have htxn := htaken.txn
    exact
      { unattended := ht
        cfg := hcfg.trans h.cfg
        req := hreq.trans h.req
        flush := hlink ▸ h.flush
        write := hlink ▸ h.write
        sound := hlink ▸ h.sound
        quiet := hturns ▸ h.quiet
        tx := by rw [hlink, htxn]; exact h.tx
        state := by rw [htxn]; split <;> simp
        rxq := by rw [htxn]; split <;> simp
        hunts := by rw [htxn]; split <;> simp
        timedOut := fun _ => ⟨htaken.kind, htaken.step.trans hhunt⟩ }
  by_cases hlate : s.txn.deadline ≤ s.now
  · exact timesOut (.inl hlate)
  cases hq : s.link.rxq with
  | nil =>
    by_cases hts : s.turns = []
    · exact timesOut (.inr ⟨hq, hts⟩)
    · have hwait := rxByte_waits h.sound (Nat.lt_of_not_le hlate) hq hts
      rw [exec, execDecode, decodeStep_await htm hon, hwait] at hstep
      cases hstep
      exact h
  | cons b q =>
    have hquiet := h.rxq (.inr htm)
    rw [hq, List.mem_cons, not_or] at hquiet
    obtain ⟨hb, hq'⟩ := hquiet
    obtain ⟨n, -, hexec⟩ := huntFindsMarker s b q ⟨htm, h.sound, Nat.lt_of_not_le hlate, hq⟩ hhunt
    rw [hstep] at hexec
    cases hexec
    exact { h with
      unattended := ht
      rxq := fun _ => hq'
      hunts := fun _ => if_neg (Ne.symm hb) }

theorem Silent.engine_step (h : Silent s₀ s) (hstep : engineStep s = .next t) (ht : Unattended t) : Silent s₀ t := by
  have hstate := h.state
  simp only [List.mem_cons, List.not_mem_nil, or_false] at hstate
  obtain htm | htm | htm | htm | htm := hstate
  · rw [engineStep_start htm] at hstep
    cases hstep
    exact h.start_step htm ht
  · rw [engineStep_sent htm] at hstep
    cases hstep
    exact { h with
      unattended := ht
      state := by simp [sentStep]
      rxq := fun _ => h.rxq (.inl htm)
      hunts := fun _ => rfl
      timedOut := nofun }
  · exact h.await_step htm (awaitStepIsDecode s htm ▸ hstep) ht
  · rw [engineStep_backoff htm] at hstep
    cases hstep
    exact { h with
      unattended := ht
      state := by simp [backoffStep]
      rxq := nofun
      hunts := nofun
      timedOut := nofun }
  · rw [engineStep_rests (.inr (by simp [State.done, htm, isTerminal]))] at hstep
    cases hstep
    exact h

theorem Silent.after_step (h : Silent s₀ s) (hstep : step s = .next t) : Silent s₀ t := by
  obtain ⟨ht, -⟩ := h.unattended.after_step hstep
  have htail : ∀ m ∈ s.turns.tail, m ∈ s.turns := fun m hm => List.mem_of_mem_tail hm
  cases step_unattended h.unattended.hostq hstep with
  | host => exact h.move ht htail ⟨rfl, rfl, rfl, rfl, rfl⟩ rfl id
  | engine hengine =>
    have hturn : Silent s₀ (s.setTurns s.turns.tail) :=
      h.move ⟨h.unattended.consistent.congr, h.unattended.busy, h.unattended.hostq⟩ htail ⟨rfl, rfl, rfl, rfl, rfl⟩ rfl id
    exact hturn.engine_step hengine ht
  | device listed =>
    have hbs : (0x7E : Byte) ∉ _ := h.quiet _ listed
    exact h.move ht htail ⟨rfl, rfl, rfl, rfl, rfl⟩ rfl fun hq hm => (List.mem_append.1 hm).elim hq hbs
  | transport listed => exact (h.quiet _ listed).elim
  | clock => exact h.move ht htail ⟨rfl, rfl, rfl, rfl, rfl⟩ rfl id

end

/-- Settles O59: the transaction ends, and what the run of a silent device keeps leaves it no end but the Timeout of the
last attempt. -/
theorem silentDeviceTimesOut : Obligations.SilentDeviceTimesOut := by
  intro s hcons hstart hattempt hq hflush hwrite hsound hquiet
  have hun : Unattended s := ⟨hcons, (busy_iff s).2 (by simp [hstart]), hq⟩
  have hsilent : Silent s s :=
    { unattended := hun, cfg := rfl, req := rfl, flush := hflush, write := hwrite, sound := hsound, quiet := hquiet
      tx := by simp [hattempt]
      state := by simp [hstart]
      rxq := by simp [hstart]
      hunts := by simp [hstart]
      timedOut := by simp [hstart] }
  obtain ⟨t, hreach, hdone⟩ := hun.reaches_done
  have ht : Silent s t := hreach.invariant (fun _ _ h hstep => h.after_step hstep) hsilent
  have htm : t.txn.tmState = .protocolError := by
    have hstate := ht.state
    cases h : t.txn.tmState <;> simp_all [State.done, isTerminal]
  obtain ⟨hkind, hstep⟩ := ht.timedOut htm
  have hcons' := ht.unattended.consistent
  have hlast : t.txn.attRem = 0 := (hcons'.result.protocolError htm).2
  have hattempts : t.txn.attempt = s.cfg.retries :=
    ht.cfg ▸ (hcons'.liveInv (by simp [htm])).attRem_eq_zero_iff.1 hlast
  obtain ⟨k, hk⟩ := hreach
  refine ⟨k, t, hk, htm, hkind, hstep, (hcons'.result.attempt (.inl hdone)).trans hattempts, hattempts, hlast, ?_⟩
  have htx := ht.tx
  rw [hattempts] at htx
  exact htx

end Sys2Proof.Machine
end

section
/-! PROOFS. 43_transaction.md R218: the step machine, played an oracle, comes to the outcome of the blocking form. -/

namespace Sys2Proof.Machine

open Sys2Proof

/-! ### The free values at decode start decide nothing (42_frame_codec.md R164; log 10) -/

/-- Two decodes in one state whose registers agree but for the header bytes not read yet. -/
inductive SameDecode : DecRegs → DecRegs → Prop
  | unread {d : DecRegs} (state : d.decState = .hunt ∨ d.decState = .addr) (a c x : Byte) :
    SameDecode d { d with rxAddr := a, rxCmd := c, rxStatus := x }
  | addrRead {d : DecRegs} (state : d.decState = .cmd) (c x : Byte) : SameDecode d { d with rxCmd := c, rxStatus := x }
  | cmdRead {d : DecRegs} (state : d.decState = .status) (x : Byte) : SameDecode d { d with rxStatus := x }
  | same (d : DecRegs) : SameDecode d d

/-- One answer has the same result in both, or both go on alike. -/
inductive SameAnswer : DecRegs × Option DecResult → DecRegs × Option DecResult → Prop
  | goesOn {d e : DecRegs} (h : SameDecode d e) : SameAnswer (d, none) (e, none)
  | ends (d e : DecRegs) (r : DecResult) : SameAnswer (d, some r) (e, some r)

theorem SameDecode.stalls {d e : DecRegs} (h : SameDecode d e) (k : Kind) :
    SameAnswer (decEnd d (stalled k d)) (decEnd e (stalled k e)) := by
  have heq : stalled k e = stalled k d := by
    cases h with
    | unread state => obtain hst | hst := state <;> simp [stalled, statusSoFar, hst]
    | addrRead state | cmdRead state => simp [stalled, statusSoFar, state]
    | same => rfl
  rw [heq]
  exact .ends _ _ _

theorem SameDecode.byte {d e : DecRegs} (h : SameDecode d e) (ea ec b : Byte) :
    SameAnswer (decodeByte ea ec b d) (decodeByte ea ec b e) := by
  cases h with
  | unread state a c x =>
    obtain hst | hst := state
    · rw [decodeByte_hunt hst, decodeByte_hunt (by exact hst)]
      exact .goesOn (.unread (by simp only; split <;> simp) a c x)
    · by_cases hb : b = ea
      · subst hb
        rw [decodeByte_addr_match hst, decodeByte_addr_match (by exact hst)]
        exact .goesOn (.addrRead rfl c x)
      · rw [decodeByte_addr_mismatch hst hb, decodeByte_addr_mismatch (by exact hst) hb]
        exact .ends _ _ _
  | addrRead hst c x =>
    by_cases hb : b = ec
    · subst hb
      rw [decodeByte_cmd_match hst, decodeByte_cmd_match (by exact hst)]
      exact .goesOn (.cmdRead rfl x)
    · rw [decodeByte_cmd_mismatch hst hb, decodeByte_cmd_mismatch (by exact hst) hb]
      exact .ends _ _ _
  | cmdRead hst x =>
    rw [decodeByte_status hst, decodeByte_status (by exact hst)]
    exact .goesOn (.same _)
  | same =>
    cases decodeByte ea ec b d with
    | mk d' r =>
      cases r with
      | none => exact .goesOn (.same _)
      | some r => exact .ends _ _ _

theorem SameDecode.answer {d e : DecRegs} (h : SameDecode d e) (ea ec : Byte) (a : RxAnswer) :
    SameAnswer (applyAnswer ea ec a d) (applyAnswer ea ec a e) := by
  cases a with
  | byte b => exact h.byte ea ec b
  | timeout | error => exact h.stalls _

theorem SameDecode.decodeAnswers_eq {d e : DecRegs} (h : SameDecode d e) (ea ec : Byte) (as : List RxAnswer) :
    decodeAnswers ea ec d as = decodeAnswers ea ec e as := by
  induction as generalizing d e with
  | nil => rfl
  | cons a as ih =>
    have hanswer := h.answer ea ec a
    rw [decodeAnswers, decodeAnswers]
    generalize applyAnswer ea ec a d = p at hanswer
    generalize applyAnswer ea ec a e = p' at hanswer
    cases hanswer with
    | goesOn h' => exact ih h'
    | ends => rfl

theorem decodeAnswers_startDecode (n m : Nat) (ea ec : Byte) (as : List RxAnswer) :
    decodeAnswers ea ec (startDecode n) as = decodeAnswers ea ec (startDecode m) as :=
  SameDecode.decodeAnswers_eq (.unread (.inl rfl) _ _ _) ea ec as

/-! ### What CONSUME reports of a failure (60_exceptions.md R290; log 31) -/

/-- The failures an attempt can end in, with the byte details `resultContext` reads back; `cnt` is RXCNT at the end of the
decode. -/
inductive Reported (cnt : Nat) : FailRec → Prop
  | stall {k : Kind} (hk : k = .timeout ∨ k = .transport) (st : DecState) (x : Byte) :
    Reported cnt
      { kind := k, step := st, expect := none, got := none,
        status := if st = .drain ∨ st = .body then some x else none }
  | device (x : Byte) :
    Reported cnt { kind := .device, step := .drain, expect := none, got := none, status := some x }
  | compared {k : Kind} (hk : k = .address ∨ k = .command ∨ k = .checksum) (st : DecState) (e : Byte) (g : Got) :
    Reported cnt { kind := k, step := st, expect := some e, got := some g, status := none }
  | emptyRegion (hcnt : cnt = 0) (g : Got) :
    Reported cnt { kind := .length, step := .body, expect := none, got := some g, status := none }
  | length (hcnt : cnt ≠ 0) (e : Byte) (g : Got) :
    Reported cnt { kind := .length, step := .body, expect := some e, got := some g, status := none }
  | escape : Reported cnt { kind := .escape, step := .body, expect := none, got := none, status := none }

theorem reported_transportRecord (cnt : Nat) : Reported cnt transportRecord := .stall (.inr rfl) .off 0

theorem reported_stalled {k : Kind} (hk : k = .timeout ∨ k = .transport) {d : DecRegs} {f : FailRec} (cnt : Nat)
    (h : stalled k d = .failed f) : Reported cnt f := by
  rw [stalled, statusSoFar_eq] at h
  cases h
  exact .stall hk _ _

theorem validateRegion_reported {d : DecRegs} {f : FailRec} (h : validateRegion d = .failed f) :
    Reported d.rxCnt f := by
  unfold validateRegion at h
  split at h
  · cases h; exact .escape
  · split at h
    · split at h <;> cases h
      · exact .length (by omega) _ _
      · exact .emptyRegion (by omega) _
    · split at h
      · cases h
        exact .length (by omega) _ _
      · dsimp only at h
        split at h <;> cases h
        exact .compared (.inr (.inr rfl)) _ _ _

theorem decodeByte_reported {ea ec b : Byte} {d d' : DecRegs} {f : FailRec}
    (h : decodeByte ea ec b d = (d', some (.failed f))) : Reported d'.rxCnt f := by
  unfold decodeByte at h
  split at h
  case h_1 | h_2 | h_5 => cases h
  case h_3 => split at h <;> cases h; exact .compared (.inl rfl) _ _ _
  case h_4 => split at h <;> cases h; exact .compared (.inr (.inl rfl)) _ _ _
  case h_6 => split at h <;> cases h; exact .device _
  case h_7 =>
    split at h
    · obtain ⟨rfl, hf⟩ := Prod.mk.inj h
      exact validateRegion_reported (Option.some.inj hf)
    · cases h

theorem applyAnswer_reported {ea ec : Byte} {a : RxAnswer} {d d' : DecRegs} {f : FailRec}
    (h : applyAnswer ea ec a d = (d', some (.failed f))) : Reported d'.rxCnt f := by
  cases a with
  | byte b => exact decodeByte_reported h
  | timeout => exact reported_stalled (.inl rfl) _ (Option.some.inj (Prod.mk.inj h).2)
  | error => exact reported_stalled (.inr rfl) _ (Option.some.inj (Prod.mk.inj h).2)

/-- The context of a recorded failure is the failure's own. -/
theorem resultContext_of_taken {f : FailRec} {target : TmState} {s t : State} (h : FailureTaken f target s t)
    (hf : Reported t.dec.rxCnt f) :
    resultContext t =
      { cmd := s.req.cmd, attempt := s.txn.attempt, step := f.step, expect := f.expect, got := f.got
        status := f.status } := by
  obtain ⟨hkind, hattempt, hstep, hexpect, hgot, hstatus, -, -, -, ⟨-, hreq, -⟩, -⟩ := h
  unfold resultContext
  rw [hkind, hattempt, hstep, hreq]
  cases hf with
  | stall hk st x =>
    by_cases hst : st = .drain ∨ st = .body
    · have hx := hstatus x (if_pos hst)
      obtain rfl | rfl := hk <;> simp only [if_pos hst, hx]
    · obtain rfl | rfl := hk <;> simp only [if_neg hst]
  | device x => simp only [hstatus x rfl]
  | compared hk st e g =>
    obtain rfl | rfl | rfl := hk <;> simp only [hexpect e rfl, hgot g rfl]
  | emptyRegion hcnt g => simp only [if_pos hcnt, hgot g rfl]
  | length hcnt e g => simp only [if_neg hcnt, hexpect e rfl, hgot g rfl]
  | escape => rfl

/-- A reported failure is of the device with its status, of the transport, or transient (60_exceptions.md R281). -/
theorem Reported.kind_cases {cnt : Nat} {f : FailRec} (h : Reported cnt f) :
    (f.kind = .device ∧ ∃ x, f.status = some x) ∨ f.kind = .transport ∨ f.kind.isTransient = true := by
  cases h with
  | stall hk =>
    obtain rfl | rfl := hk
    · exact .inr (.inr rfl)
    · exact .inr (.inl rfl)
  | device x => exact .inl ⟨rfl, x, rfl⟩
  | compared hk => obtain rfl | rfl | rfl := hk <;> exact .inr (.inr rfl)
  | emptyRegion | length | escape => exact .inr (.inr rfl)

theorem failedOutcome_transient {f : FailRec} (h : f.kind.isTransient = true) (c attempt : Byte) :
    failedOutcome c attempt f = .failed (.protocol f.kind)
      { cmd := c, attempt := attempt, step := f.step, expect := f.expect, got := f.got, status := f.status } := by
  unfold failedOutcome
  split
  · next hk => simp [hk, Kind.isTransient] at h
  · next hk => simp [hk, Kind.isTransient] at h
  · rfl

/-- CONSUME goes to IDLE and answers the outcome. -/
def Consumes (s : State) (o : TxnOutcome) : Prop :=
  ∃ t, consumeOp s = .next t ∧ t.txn.tmState = .idle ∧ t.answer = some (.outcome o)

/-- After a failure that ended the transaction CONSUME returns the outcome of R218. -/
theorem consumes_failedOutcome {f : FailRec} {s t : State}
    (h : FailureTaken f (failureTarget f.kind s.txn.attRem) s t) (hf : Reported t.dec.rxCnt f) (hdone : t.done = true) :
    Consumes t (failedOutcome s.req.cmd s.txn.attempt f) := by
  have hctx := resultContext_of_taken h hf
  have htm : t.txn.tmState = failureTarget f.kind s.txn.attRem := by rw [h.txn]
  obtain ⟨hk, x, hx⟩ | hk | hk := hf.kind_cases
  · rw [hk] at htm
    refine ⟨_, consumeOp_deviceError htm, rfl, ?_⟩
    rw [hctx, h.status x hx, failedOutcome, hk, hx]
    rfl
  · rw [hk] at htm
    refine ⟨_, consumeOp_transportError htm, rfl, ?_⟩
    rw [hctx, failedOutcome, hk]
    rfl
  · rw [failureTarget_transient hk] at htm
    have hlast : s.txn.attRem = 0 := by
      by_contra hne
      rw [if_neg hne] at htm
      simp [State.done, htm, isTerminal] at hdone
    rw [if_pos hlast] at htm
    refine ⟨_, consumeOp_protocolError htm, rfl, ?_⟩
    rw [hctx, h.kind, failedOutcome_transient hk]
    rfl

theorem resultContext_takeFrame (f : Frame) (s : State) :
    resultContext (takeFrame f s) =
      { cmd := s.req.cmd, attempt := s.txn.attempt, step := .off, expect := none, got := none, status := some 0x00 } := by
  rw [takeFrame_eq]
  rfl

/-- After a validated frame CONSUME returns what the registered decoder makes of its payload. -/
theorem consumes_deliverPayload {f : Frame} {s : State} {o : TxnOutcome} (hcons : Consistent (takeFrame f s))
    (h : deliverPayload s.cfg s.req.cmd s.txn.attempt f.payload (Config.captureTime s.draws) = some o) :
    Consumes (takeFrame f s) o := by
  obtain ⟨d, hd, rfl⟩ := Option.map_eq_some_iff.1 h
  obtain ⟨-, -, hfits⟩ := hcons.result.completed (takeFrame_tm f s)
  have hpay : resultPayload (takeFrame f s) = f.payload := by
    rw [resultPayload, List.take_of_length_le hfits.le, takeFrame_eq]
  have hregs : (takeFrame f s).cfg = s.cfg ∧ (takeFrame f s).req = s.req ∧ (takeFrame f s).draws = s.draws := by
    rw [takeFrame_eq]
    exact ⟨rfl, rfl, rfl⟩
  obtain ⟨hcfg, hreq, hdraws⟩ := hregs
  refine ⟨_, consumeOp_completed (takeFrame_tm f s) (by rw [hcfg, hreq]; exact hd), rfl, ?_⟩
  simp only [deliver, hpay, hcfg, hdraws, resultContext_takeFrame]
  rfl

theorem deliver_congr {s t : State} (h : RegsKept s t) (hdraws : t.draws = s.draws) (d : Decoder) :
    deliver d t = deliver d s := by
  simp only [deliver, resultPayload, resultContext, h.cfg, h.req, h.dec, h.res, hdraws]

/-- What CONSUME returns is a matter of the registers, and of the draw the timestamp comes from. -/
theorem Consumes.congr {s t : State} {o : TxnOutcome} (h : Consumes s o) (hregs : RegsKept s t)
    (hdraws : t.draws = s.draws) : Consumes t o := by
  obtain ⟨u, hu, htm, hanswer⟩ := h
  have hctx : resultContext t = resultContext s := by
    simp only [resultContext, hregs.req, hregs.dec, hregs.res]
  unfold consumeOp at hu
  split at hu
  case h_1 hs =>
    split at hu <;> cases hu
    next d hd =>
    refine ⟨_, consumeOp_completed (hregs.txn ▸ hs) (by rw [hregs.cfg, hregs.req]; exact hd), rfl, ?_⟩
    rw [deliver_congr hregs hdraws]
    exact hanswer
  case h_2 hs =>
    cases hu
    refine ⟨_, consumeOp_deviceError (hregs.txn ▸ hs), rfl, ?_⟩
    rw [hctx, hregs.res]
    exact hanswer
  case h_3 hs =>
    cases hu
    refine ⟨_, consumeOp_protocolError (hregs.txn ▸ hs), rfl, ?_⟩
    rw [hctx, hregs.res]
    exact hanswer
  case h_4 hs =>
    cases hu
    refine ⟨_, consumeOp_transportError (hregs.txn ▸ hs), rfl, ?_⟩
    rw [hctx]
    exact hanswer
  all_goals
    cases hu
    cases hanswer

/-- A run from `s` comes to IDLE with the outcome as its answer. -/
def ReachesOutcome (s : State) (o : TxnOutcome) : Prop :=
  ∃ t, Reaches s t ∧ t.txn.tmState = .idle ∧ t.answer = some (.outcome o)

theorem ReachesOutcome.of_reaches {s t : State} {o : TxnOutcome} (h : Reaches s t) (g : ReachesOutcome t o) :
    ReachesOutcome s o := by
  obtain ⟨u, hu, hidle, hanswer⟩ := g
  exact ⟨u, h.trans hu, hidle, hanswer⟩

theorem Consumes.reachesOutcome {s u : State} {o : TxnOutcome} (h : Consumes u o) (hstep : step s = consumeOp u) :
    ReachesOutcome s o := by
  obtain ⟨t, ht, hidle, hanswer⟩ := h
  exact ⟨t, .head (hstep.trans ht) (.refl t), hidle, hanswer⟩

/-- When the transaction is over the moves still listed change no register, and CONSUME is performed at the host's next
move. -/
theorem reachesOutcome_of_consumes {s : State} {o : TxnOutcome} (h : Consumes s o) (hdone : s.done = true)
    (hq : s.hostq = [.op [7]]) : ReachesOutcome s o := by
  induction hts : s.turns generalizing s with
  | nil =>
    have hrest : s.active = false := by simp [State.active, hdone]
    refine Consumes.reachesOutcome (u := s.setHostq []) (h.congr ⟨rfl, rfl, rfl, rfl, rfl⟩ rfl) ?_
    rw [step_inactive hts hrest]
    exact hostStep_eq_exec hq rfl (by decide)
  | cons m ts ih =>
    have goesOn {u : State} (hstep : step s = .next u) (hu : RegsKept s u) (hdraws : u.draws = s.draws)
        (hq' : u.hostq = s.hostq) (hts' : u.turns = ts) : ReachesOutcome s o :=
      .of_reaches (.head hstep (.refl u))
        (ih (h.congr hu hdraws) (by rw [State.done, hu.txn]; exact hdone) (hq'.trans hq) hts')
    cases m with
    | host =>
      refine Consumes.reachesOutcome (u := (s.setTurns ts).setHostq []) (h.congr ⟨rfl, rfl, rfl, rfl, rfl⟩ rfl) ?_
      rw [step_host hts]
      exact hostStep_eq_exec (s := s.setTurns ts) hq rfl (by decide)
    | engine =>
      exact goesOn ((step_engine hts).trans (engineStep_rests (.inr hdone))) ⟨rfl, rfl, rfl, rfl, rfl⟩ rfl rfl rfl
    | device bs => exact goesOn (step_device hts) ⟨rfl, rfl, rfl, rfl, rfl⟩ rfl rfl rfl
    | transport f w b => exact goesOn (step_transport hts) ⟨rfl, rfl, rfl, rfl, rfl⟩ rfl rfl rfl
    | clock n l => exact goesOn (step_clock hts) ⟨rfl, rfl, rfl, rfl, rfl⟩ rfl rfl rfl

end Sys2Proof.Machine
end

section
/-! PROOFS. 43_transaction.md R218: the moves that play an oracle bring the step machine through the attempts of the
blocking form. -/

namespace Sys2Proof.Machine

open Sys2Proof

theorem Reaches.consistent {s t : State} (h : Reaches s t) (hs : Consistent s) : Consistent t :=
  h.invariant stepKeepsInvariant hs

/-! ### One answer of the oracle -/

/-- A move of the environment, then the engine's, which reads an answer. -/
theorem reaches_receiveAnswer {s u w : State} {ts : List Turn} {a : RxAnswer} (hmove : step s = .next u)
    (hts : u.turns = .engine :: ts) (hawait : u.txn.tmState = .await) (hon : u.dec.decState ≠ .off)
    (hrx : rxByte (u.setTurns ts) = (some a, w)) : Reaches s (receiveAnswer a w) := by
  have hexec := (awaitStepIsDecode (u.setTurns ts) hawait).trans (decodeStep_await hawait hon)
  rw [hrx] at hexec
  exact .head hmove (.head ((step_engine hts).trans hexec) (.refl _))

/-- From `s` to `u` the listed moves up to `ts` are taken, and but for the transport, the time and the decode registers
nothing else has changed; no lingering is left. -/
def DecodeMoves (ts : List Turn) (s u : State) : Prop :=
  u = { s with turns := ts, link := u.link, now := u.now, lapse := 0, dec := u.dec }

theorem plays_answer {n : Nat} {a : RxAnswer} {as : List RxAnswer} {s : State} {ts : List Turn}
    (hawait : s.txn.tmState = .await) (hon : s.dec.decState ≠ .off) (hsound : s.link.broken = false)
    (hq : s.link.rxq = []) (hlapse : s.lapse = 0) (hroom : s.now + byteCount (a :: as) ≤ s.txn.deadline)
    (hlate : s.txn.deadline ≤ s.now + n) (hts : s.turns = answerTurns n (a :: as) ++ ts) :
    ∃ w, Reaches s (receiveAnswer a w) ∧ DecodeMoves (answerTurns n as ++ ts) s w ∧ w.dec = s.dec ∧
      ∀ b, a = .byte b → w.link = s.link ∧ w.now = s.now + 1 := by
  unfold DecodeMoves
  rw [← hlapse]
  cases a with
  | byte b =>
    have htime : s.now < s.txn.deadline := by
      simp only [byteCount, List.countP_cons_of_pos] at hroom
      omega
    have hrx := rxByte_byte (s := (s.setTurns (answerTurns n as ++ ts)).setRxq (s.link.rxq ++ [b])) (b := b) (q := [])
      hsound htime (by simp [hq])
    have hreach := reaches_receiveAnswer (step_device hts) rfl hawait hon hrx
    refine ⟨_, hreach, rfl, rfl, fun _ _ => ⟨?_, ?_⟩⟩
    · show { s.link with rxq := [] } = s.link
      rw [← hq]
    · show s.now + 1 + s.lapse = s.now + 1
      rw [hlapse]
  | timeout =>
    have hrx := rxByte_expired (s := ((s.setTurns (answerTurns n as ++ ts)).setNow (s.now + n)).setLapse 0) hsound hlate
    have hreach := reaches_receiveAnswer (step_clock hts) rfl hawait hon hrx
    exact ⟨_, hreach, by rw [hlapse]; rfl, rfl, nofun⟩
  | error =>
    have hrx := rxByte_broken (s := (s.setTurns (answerTurns n as ++ ts)).setLink
      { s.link with flushAnswer := .ok, writeAnswer := .all, broken := true }) rfl
    have hreach := reaches_receiveAnswer (step_transport hts) rfl hawait hon hrx
    exact ⟨_, hreach, rfl, rfl, nofun⟩

/-! ### One decode (42_frame_codec.md R177) -/

/-- The moves that play the answers of a decode bring the machine to the end of the decode, with the same result. -/
theorem plays_decode {n : Nat} {as : List RxAnswer} {s : State} {ts : List Turn} {r : DecResult} (hcons : Consistent s)
    (hawait : s.txn.tmState = .await) (hsound : s.link.broken = false) (hq : s.link.rxq = []) (hlapse : s.lapse = 0)
    (hroom : s.now + byteCount as ≤ s.txn.deadline) (hlate : s.txn.deadline ≤ s.now + n)
    (hts : s.turns = answerTurns n as ++ ts)
    (h : decodeAnswers s.txn.expAddr s.txn.expCmd s.dec as = some (r, [])) :
    ∃ u, Reaches s (conclude r u) ∧ DecodeMoves ts s u ∧ ∀ f, r = .failed f → Reported u.dec.rxCnt f := by
  induction as generalizing s with
  | nil => cases h
  | cons a as ih =>
    have hon : s.dec.decState ≠ .off := hcons.decodeRuns.2 hawait
    obtain ⟨w, hreach, hw, hdec, hbyte⟩ := plays_answer hawait hon hsound hq hlapse hroom hlate hts
    have htxn : w.txn = s.txn := by rw [hw]
    have hp' (p) (hp : applyAnswer s.txn.expAddr s.txn.expCmd a s.dec = p) :
        applyAnswer w.txn.expAddr w.txn.expCmd a w.dec = p := by rw [htxn, hdec, hp]
    rw [decodeAnswers] at h
    cases hp : applyAnswer s.txn.expAddr s.txn.expCmd a s.dec with
    | mk d res =>
      rw [hp] at h
      cases res with
      | some r' =>
        obtain ⟨rfl, rfl⟩ := Prod.mk.inj (Option.some.inj h)
        rw [receiveAnswer_some (hp' _ hp)] at hreach
        refine ⟨w.setDec d, hreach, by rw [DecodeMoves, hw]; rfl, ?_⟩
        rintro f rfl
        exact applyAnswer_reported hp
      | none =>
        rw [receiveAnswer_none (hp' _ hp)] at hreach
        cases a with
        | byte b =>
          obtain ⟨hlink, hnow⟩ := hbyte b rfl
          have hcount : byteCount (.byte b :: as) = byteCount as + 1 := by simp [byteCount]
          have hlast : (w.setDec d).lapse = 0 := by rw [hw]; rfl
          have hroom' : (w.setDec d).now + byteCount as ≤ (w.setDec d).txn.deadline := by
            rw [State.setDec_now, State.setDec_txn, htxn, hnow]
            omega
          have hlate' : (w.setDec d).txn.deadline ≤ (w.setDec d).now + n := by
            rw [State.setDec_now, State.setDec_txn, htxn, hnow]
            omega
          obtain ⟨u, hu, hmoves, hrep⟩ := ih (hreach.consistent hcons) (by simp [htxn, hawait]) (by simp [hlink, hsound])
            (by simp [hlink, hq]) hlast hroom' hlate' (by rw [hw]; rfl)
            (by simpa only [State.setDec_txn, State.setDec_dec, htxn] using h)
          refine ⟨u, hreach.trans hu, ?_, hrep⟩
          rw [DecodeMoves, hmoves, hw]
          rfl
        | timeout | error => cases hp

/-! ### One attempt (R205 to R211) -/

/-- The state in which the result `r` of the attempt begun in `s` is classified: the attempt is counted, and when the
result lets the transaction go on only the engine's move of BACKOFF is left of the attempt's moves. -/
structure AttemptOver (ts : List Turn) (r : DecResult) (s u : State) : Prop where
  reaches : Reaches s (conclude r u)
  cfg : u.cfg = s.cfg
  req : u.req = s.req
  hostq : u.hostq = s.hostq
  lapse : u.lapse = 0
  attempt : u.txn.attempt = s.txn.attempt + 1
  reported : ∀ f, r = .failed f → Reported u.dec.rxCnt f
  turns : ∀ f, r = .failed f → f.kind.isTransient = true → u.turns = .engine :: ts

section

variable {o : AttemptOracle} {c : Byte} {p : List Byte}

theorem blockingAttempt_flush_fails (h : o.flushOk = false) : blockingAttempt c p o = some (.failed transportRecord) :=
  if_pos h

theorem blockingAttempt_write_fails (hflush : o.flushOk = true)
    (h : o.taken ≠ some (encodeFrame Config.DEV_ADDR c p).length) :
    blockingAttempt c p o = some (.failed transportRecord) := by
  rw [blockingAttempt, if_neg (by simp [hflush]), if_pos h]

theorem blockingAttempt_decodes (hflush : o.flushOk = true)
    (h : o.taken = some (encodeFrame Config.DEV_ADDR c p).length) :
    blockingAttempt c p o = (decodeAnswers Config.DEV_ADDR c (startDecode 0) o.answers).map (·.1) := by
  rw [blockingAttempt, if_neg (by simp [hflush]), if_neg (not_not.2 h)]

end

/-- How the transport will answer the flush of an oracle. -/
def oracleFlush (o : AttemptOracle) : FlushAnswer := if o.flushOk then .ok else .error 0

/-- How the transport will answer the write of an oracle. -/
def oracleWrite (o : AttemptOracle) : WriteAnswer :=
  match o.taken with
  | some n => .upTo n
  | none => .error 0

/-- The state in which START runs, once the transport has its way of answering. -/
def prepared (o : AttemptOracle) (us : List Turn) (s : State) : State :=
  (s.setTurns us).setLink
    { s.link with flushAnswer := oracleFlush o, writeAnswer := oracleWrite o, broken := false }

section

variable {o : AttemptOracle} {s : State} {ts us : List Turn} {r : DecResult}

theorem plays_start (hstart : s.txn.tmState = .start) (hts : s.turns = attemptTurns s.cfg.timeout o ++ ts) :
    Reaches s (startStep (prepared o (.engine :: (answerTurns s.cfg.timeout o.answers ++ .engine :: ts)) s)) := by
  have hrest : s.turns = .transport (oracleFlush o) (oracleWrite o) false :: .engine :: .engine ::
      (answerTurns s.cfg.timeout o.answers ++ .engine :: ts) := by
    rw [hts, attemptTurns, List.cons_append, List.cons_append, List.cons_append, List.append_assoc]
    rfl
  exact .head (step_transport hrest) (.head ((step_engine rfl).trans (engineStep_start hstart)) (.refl _))

/-- The flush or the write has failed in state `u`. -/
def StartFails (s u : State) : Prop :=
  startStep s = failTransport u ∧ u = { beginAttempt s with link := u.link, now := u.now }

/-- A flush or write that fails ends the attempt in START. -/
theorem StartFails.attemptOver {u : State} (h : StartFails (prepared o us s) u)
    (hreach : Reaches s (startStep (prepared o us s))) (hlapse : s.lapse = 0) :
    AttemptOver ts (.failed transportRecord) s u := by
  obtain ⟨hfail, hu⟩ := h
  rw [hfail] at hreach
  exact
    { reaches := hreach
      cfg := by rw [hu]; rfl
      req := by rw [hu]; rfl
      hostq := by rw [hu]; rfl
      lapse := by rw [hu]; exact hlapse
      attempt := by rw [hu]; rfl
      reported := by rintro f ⟨⟩; exact reported_transportRecord _
      turns := by rintro f ⟨⟩ ⟨⟩ }

theorem prepared_flush_fails (h : o.flushOk = false) : ∃ u, StartFails (prepared o us s) u :=
  ⟨_, startStep_flush_fails (k := 0) (by simp [prepared, oracleFlush, h]), rfl⟩

theorem prepared_write_fails (hflush : o.flushOk = true)
    (hexact : ∀ n, o.taken = some n → n ≤ (requestFrame s.req).length)
    (h : o.taken ≠ some (requestFrame s.req).length) : ∃ u, StartFails (prepared o us s) u := by
  have hok : (prepared o us s).link.flushAnswer = .ok := by simp [prepared, oracleFlush, hflush]
  generalize hv : linger ((beginAttempt (prepared o us s)).setRxq []) = v
  have hfails {a : TxAnswer} {u : State} (hw : txWrite (requestFrame v.req) v = (a, u))
      (ha : a ≠ .count (requestFrame v.req).length) : startStep (prepared o us s) = failTransport u := by
    rw [startStep_flushed hok, hv, sendRequest_fails hw ha]
  have hanswer : v.link.writeAnswer = oracleWrite o := by rw [← hv]; rfl
  cases htaken : o.taken with
  | none =>
    have hwrite : v.link.writeAnswer = .error 0 := by rw [hanswer, oracleWrite, htaken]
    exact ⟨_, hfails (txWrite_error hwrite _) nofun, by rw [← hv]; rfl⟩
  | some n =>
    have hwrite : v.link.writeAnswer = .upTo n := by rw [hanswer, oracleWrite, htaken]
    have hreq : v.req = s.req := by rw [← hv]; rfl
    have hlt : n < (requestFrame v.req).length := hreq ▸
      Nat.lt_of_le_of_ne (hexact n htaken) fun heq => h (htaken.trans (congrArg some heq))
    refine ⟨_, hfails (txWrite_upTo hwrite _) ?_, by rw [← hv]; rfl⟩
    rw [ne_eq, TxAnswer.count.injEq, List.length_take]
    omega

/-- An attempt whose frame is written ends with its decode. -/
theorem plays_written_attempt (hcons : Consistent s) (hstart : s.txn.tmState = .start) (hlapse : s.lapse = 0)
    (hreach : Reaches s (startStep (prepared o (.engine :: (answerTurns s.cfg.timeout o.answers ++ .engine :: ts)) s)))
    (hflush : o.flushOk = true) (htaken : o.taken = some (requestFrame s.req).length)
    (hroom : byteCount o.answers ≤ s.cfg.timeout)
    (h : decodeAnswers Config.DEV_ADDR s.req.cmd (startDecode 0) o.answers = some (r, [])) :
    ∃ u, AttemptOver ts r s u := by
  have hlive := hcons.liveInv (by simp [hstart])
  rw [startStep_sends (by simp [prepared, oracleFlush, hflush])
    (.inr ⟨_, by simp [prepared, oracleWrite, htaken], le_rfl⟩)] at hreach
  have hawait := hreach.trans (.head ((step_engine rfl).trans (engineStep_sent rfl)) (.refl _))
  have hdecode : decodeAnswers s.txn.expAddr s.txn.expCmd (startDecode s.draws) o.answers = some (r, []) := by
    rw [hlive.expAddr, hlive.expCmd, decodeAnswers_startDecode _ 0]
    exact h
  obtain ⟨u, hu, hmoves, hrep⟩ := plays_decode (hawait.consistent hcons) rfl rfl rfl hlapse
    (Nat.add_le_add_left hroom _) le_rfl rfl hdecode
  exact ⟨u, hawait.trans hu, by rw [hmoves]; rfl, by rw [hmoves]; rfl, by rw [hmoves]; rfl, by rw [hmoves],
    by rw [hmoves]; rfl, hrep, fun _ _ _ => by rw [hmoves]⟩

theorem plays_attempt (hcons : Consistent s) (hstart : s.txn.tmState = .start) (hlapse : s.lapse = 0)
    (hts : s.turns = attemptTurns s.cfg.timeout o ++ ts)
    (hexact : ExactOracle s.cfg.timeout s.req.cmd (requestFrame s.req).length o)
    (h : blockingAttempt s.req.cmd (s.req.txPay.take s.req.txLen.toNat) o = some r) : ∃ u, AttemptOver ts r s u := by
  have hreach := plays_start hstart hts
  by_cases hflush : o.flushOk = true
  · by_cases htaken : o.taken = some (requestFrame s.req).length
    · obtain ⟨hroom, r', hr'⟩ := hexact.decode hflush htaken
      rw [blockingAttempt_decodes hflush htaken, hr'] at h
      cases h
      exact plays_written_attempt hcons hstart hlapse hreach hflush htaken hroom hr'
    · rw [blockingAttempt_write_fails hflush htaken] at h
      cases h
      obtain ⟨u, hfails⟩ := prepared_write_fails hflush hexact.taken htaken
      exact ⟨u, hfails.attemptOver hreach hlapse⟩
  · have hflush : o.flushOk = false := Bool.eq_false_of_not_eq_true hflush
    rw [blockingAttempt_flush_fails hflush] at h
    cases h
    obtain ⟨u, hfails⟩ := prepared_flush_fails hflush
    exact ⟨u, hfails.attemptOver hreach hlapse⟩

end

/-! ### The loop (R218) -/

section

variable {cfg : CfgRegs} {c : Byte} {p : List Byte} {n : Byte} {a : AttemptOracle} {f : FailRec}

theorem blockingLoop_frame {fr : Frame} (h : blockingAttempt c p a = some (.frame fr)) (ts : Nat)
    (os : List AttemptOracle) :
    blockingLoop cfg c p ts n (a :: os) = deliverPayload cfg c (n + 1) fr.payload ts := by
  rw [blockingLoop, h]

theorem blockingLoop_retries (h : blockingAttempt c p a = some (.failed f)) (hk : f.kind.isTransient = true)
    (hn : n + 1 ≠ cfg.retries) (ts : Nat) (os : List AttemptOracle) :
    blockingLoop cfg c p ts n (a :: os) = blockingLoop cfg c p ts (n + 1) os := by
  rw [blockingLoop, h]
  exact if_pos ⟨hk, hn⟩

theorem blockingLoop_fails (h : blockingAttempt c p a = some (.failed f))
    (hlast : ¬ (f.kind.isTransient = true ∧ n + 1 ≠ cfg.retries)) (ts : Nat) (os : List AttemptOracle) :
    blockingLoop cfg c p ts n (a :: os) = some (failedOutcome c (n + 1) f) := by
  rw [blockingLoop, h]
  exact if_neg hlast

end

section

variable {s u : State} {ts : List Turn} {f : FailRec}

/-- The counters are those of the attempt when its failure is taken. -/
theorem takeFailure_attRem_eq_zero_iff (h : Consistent (takeFailure f u)) :
    u.txn.attRem = 0 ↔ u.txn.attempt = u.cfg.retries := by
  have htaken := takeFailure_taken f u
  have hbusy : (takeFailure f u).txn.tmState ≠ .idle := fun hidle => by
    have hedge := isEdge_conclude (.failed f) u
    rw [conclude, hidle] at hedge
    cases hedge
  have hiff := (h.liveInv hbusy).attRem_eq_zero_iff
  rwa [htaken.txn, htaken.kept.1] at hiff

/-- A failure that is not retried ends the transaction. -/
theorem takeFailure_done (hf : Reported u.dec.rxCnt f) (hlast : f.kind.isTransient = true → u.txn.attRem = 0) :
    (takeFailure f u).done = true := by
  rw [State.done, takeFailure_tm]
  obtain ⟨hk, -⟩ | hk | hk := hf.kind_cases
  · rw [hk]; rfl
  · rw [hk]; rfl
  · rw [failureTarget_transient hk, if_pos (hlast hk)]; rfl

/-- The last attempt of the loop ended in a frame: CONSUME delivers its payload. -/
theorem AttemptOver.delivers {fr : Frame} (h : AttemptOver ts (.frame fr) s u) (hcons : Consistent s)
    (hq : s.hostq = [.op [7]]) {o : TxnOutcome}
    (ho : deliverPayload s.cfg s.req.cmd (s.txn.attempt + 1) fr.payload (Config.captureTime u.draws) = some o) :
    ReachesOutcome s o := by
  rw [← h.cfg, ← h.req, ← h.attempt] at ho
  refine .of_reaches h.reaches (reachesOutcome_of_consumes
    (consumes_deliverPayload (h.reaches.consistent hcons) ho) ?_ ?_)
  · rw [conclude, State.done, takeFrame_tm]; rfl
  · rw [(conclude_wireFrame _ u).hostq, h.hostq, hq]

/-- The last attempt of the loop failed: CONSUME returns that failure. -/
theorem AttemptOver.fails (h : AttemptOver ts (.failed f) s u) (hcons : Consistent s) (hq : s.hostq = [.op [7]])
    (hlast : ¬ (f.kind.isTransient = true ∧ s.txn.attempt + 1 ≠ s.cfg.retries)) :
    ReachesOutcome s (failedOutcome s.req.cmd (s.txn.attempt + 1) f) := by
  have hrep := h.reported f rfl
  have hiff := takeFailure_attRem_eq_zero_iff (h.reaches.consistent hcons)
  rw [h.attempt, h.cfg] at hiff
  have hdone := takeFailure_done hrep fun hk => hiff.2 (not_not.1 fun hne => hlast ⟨hk, hne⟩)
  have hcnt : (takeFailure f u).dec.rxCnt = u.dec.rxCnt := by rw [takeFailure_dec]
  have hconsumes := consumes_failedOutcome (takeFailure_taken f u) (hcnt ▸ hrep) hdone
  rw [h.req, h.attempt] at hconsumes
  exact .of_reaches h.reaches (reachesOutcome_of_consumes hconsumes hdone
    (((conclude_wireFrame (.failed f) u).hostq.trans h.hostq).trans hq))

end

/-- The machine is about to play the oracles `os` from START, and the blocking loop over them returns `o`. -/
structure Plays (os : List AttemptOracle) (o : Nat → TxnOutcome) (s : State) : Prop where
  consistent : Consistent s
  start : s.txn.tmState = .start
  lapse : s.lapse = 0
  hostq : s.hostq = [.op [7]]
  turns : s.turns = oracleTurns s.cfg.timeout os
  exact : ∀ a ∈ os, ExactOracle s.cfg.timeout s.req.cmd (requestFrame s.req).length a
  loop : ∀ ts, blockingLoop s.cfg s.req.cmd (s.req.txPay.take s.req.txLen.toNat) ts s.txn.attempt os = some (o ts)

section

variable {os : List AttemptOracle} {a : AttemptOracle} {o : Nat → TxnOutcome} {s u : State} {f : FailRec}

/-- A transient failure with an attempt left leads through BACKOFF to the next START. -/
theorem AttemptOver.retries (h : AttemptOver (oracleTurns s.cfg.timeout os) (.failed f) s u) (hs : Plays (a :: os) o s)
    (hr : blockingAttempt s.req.cmd (s.req.txPay.take s.req.txLen.toNat) a = some (.failed f))
    (hk : f.kind.isTransient = true) (hnext : s.txn.attempt + 1 ≠ s.cfg.retries) : ∃ v, Reaches s v ∧ Plays os o v := by
  have hiff := takeFailure_attRem_eq_zero_iff (h.reaches.consistent hs.consistent)
  rw [h.attempt, h.cfg] at hiff
  have hframe := conclude_wireFrame (.failed f) u
  have hbackoff : (conclude (.failed f) u).txn.tmState = .backoff := by
    rw [conclude, takeFailure_tm, failureTarget_transient hk, if_neg (mt hiff.1 hnext)]
  have hturns := hframe.turns.trans (h.turns f rfl hk)
  let v : State := backoffStep ((conclude (.failed f) u).setTurns (oracleTurns s.cfg.timeout os))
  have hreach : Reaches s v :=
    h.reaches.trans (.head ((step_engine hturns).trans (engineStep_backoff hbackoff)) (.refl v))
  have hcfg : v.cfg = s.cfg := hframe.cfg.trans h.cfg
  have hreq : v.req = s.req := hframe.req.trans h.req
  have hattempt : v.txn.attempt = s.txn.attempt + 1 := (congrArg TxnRegs.attempt hframe.txn).trans h.attempt
  exact ⟨v, hreach,
    { consistent := hreach.consistent hs.consistent
      start := rfl
      lapse := hframe.lapse.trans h.lapse
      hostq := (hframe.hostq.trans h.hostq).trans hs.hostq
      turns := by rw [hcfg]; rfl
      exact := by rw [hcfg, hreq]; exact fun b hb => hs.exact b (List.mem_cons_of_mem a hb)
      loop := fun ts => by rw [hcfg, hreq, hattempt, ← blockingLoop_retries hr hk hnext ts os]; exact hs.loop ts }⟩

/-- The loop over the attempts and the run of the step machine come to one outcome, attempt by attempt. -/
theorem Plays.reachesOutcome (h : Plays os o s) : ∃ ts, ReachesOutcome s (o ts) := by
  induction os generalizing s with
  | nil => cases h.loop 0
  | cons a os ih =>
    have hplays {r} :=
      plays_attempt (r := r) h.consistent h.start h.lapse h.turns (h.exact a List.mem_cons_self)
    cases hr : blockingAttempt s.req.cmd (s.req.txPay.take s.req.txLen.toNat) a with
    | none =>
      have hloop := h.loop 0
      rw [blockingLoop, hr] at hloop
      cases hloop
    | some r =>
      obtain ⟨u, hu⟩ := hplays hr
      cases r with
      | frame fr =>
        have hloop := h.loop (Config.captureTime u.draws)
        rw [blockingLoop_frame hr] at hloop
        exact ⟨_, hu.delivers h.consistent h.hostq hloop⟩
      | failed f =>
        by_cases hagain : f.kind.isTransient = true ∧ s.txn.attempt + 1 ≠ s.cfg.retries
        · obtain ⟨v, hv, hvplays⟩ := hu.retries h hr hagain.1 hagain.2
          obtain ⟨ts, hout⟩ := ih hvplays
          exact ⟨ts, .of_reaches hv hout⟩
        · have hloop := h.loop 0
          rw [blockingLoop_fails hr hagain] at hloop
          exact ⟨0, Option.some.inj hloop ▸ hu.fails h.consistent h.hostq hagain⟩

end

/-- Settles O60: the blocking loop and the step machine agree attempt by attempt; the payload is the whole of TXPAY. -/
theorem blockingFormAgrees : Obligations.BlockingFormAgrees := by
  intro s os o hcons hstart hattempt hlapse hq hts hexact h
  have hlive := hcons.liveInv (by simp [hstart])
  have hpay : s.req.txPay.take s.req.txLen.toNat = s.req.txPay := List.take_of_length_le hlive.payload.le
  have hframe : requestFrame s.req = encodeFrame 0x00 s.req.cmd s.req.txPay := by rw [requestFrame, hpay]; rfl
  obtain ⟨ts, t, ⟨k, hk⟩, hidle, hanswer⟩ := Plays.reachesOutcome
    ⟨hcons, hstart, hlapse, hq, hts, by rw [hframe]; exact hexact, by rw [hpay, hattempt]; exact h⟩
  exact ⟨k, t, ts, hk, hidle, hanswer⟩

end Sys2Proof.Machine
end

section
/-! PROOFS. 44_commands.md R240 to R247: the seven commands. -/

namespace Sys2Proof.Machine

open Sys2Proof

/-- R240: the seven commands of 44_commands.md with payload `p`, each with its command byte of R95. -/
def commandOperations (p : List Byte) : List (Instr × Byte) :=
  [(.startMeas p, 0x00), (.stopMeas p, 0x01), (.readMeas p, 0x03), (.autoclean p, 0x80), (.fanClean p, 0x56),
    (.devInfo p, 0xD0), (.devReset p, 0xD3)]

theorem commandOperations_bytes (p : List Byte) :
    (commandOperations p).map Prod.snd = [0x00, 0x01, 0x03, 0x80, 0x56, 0xD0, 0xD3] := rfl

theorem exec_eq_exec_execute {p : List Byte} {i : Instr} {c : Byte} (h : (i, c) ∈ commandOperations p) (s : State) :
    exec i s = exec (.execute c p) s := by
  simp only [commandOperations, List.mem_cons, Prod.mk.injEq, List.not_mem_nil, or_false] at h
  obtain ⟨rfl, rfl⟩ | ⟨rfl, rfl⟩ | ⟨rfl, rfl⟩ | ⟨rfl, rfl⟩ | ⟨rfl, rfl⟩ | ⟨rfl, rfl⟩ | ⟨rfl, rfl⟩ := h <;> rfl

/-- Settles O35: each command is EXECUTE of a byte of the closed set, so an accepted one has the effect of O34. -/
theorem commandsAreExecute : Obligations.CommandsAreExecute := by
  intro p s i c h
  have hexec := exec_eq_exec_execute h s
  have hc : c ∈ (commandOperations p).map Prod.snd := List.mem_map_of_mem h
  rw [commandOperations_bytes] at hc
  exact ⟨hexec, fun hidle hp hretries htimeout =>
    hexec.trans (executeCreatesTransaction c p s hidle hc hp hretries htimeout)⟩

end Sys2Proof.Machine
end

section
/-! PROOFS. 45_catalog_and_decoders.md: the catalog, the ack decoder and the measurement decoder. -/

namespace Sys2Proof.Machine

open Sys2Proof

/-! ### MEASDEC (R265 to R268) -/

theorem toNat_append_byte {n : Nat} (x : BitVec n) (b : Byte) : (x ++ b).toNat = x.toNat * 2 ^ 8 + b.toNat := by
  rw [BitVec.toNat_append, ← Nat.shiftLeft_add_eq_or_of_lt b.isLt, Nat.shiftLeft_eq]

/-- R268: the four bytes of a field are the digits of its pattern in base 256, the first the most significant. -/
theorem f32_toNat (b0 b1 b2 b3 : Byte) :
    (f32 b0 b1 b2 b3).toNat = b0.toNat * 2 ^ 24 + b1.toNat * 2 ^ 16 + b2.toNat * 2 ^ 8 + b3.toNat := by
  rw [f32, toNat_append_byte, toNat_append_byte, toNat_append_byte]
  omega

theorem byteAt_of_getElem? {p : List Byte} {i : Nat} {b : Byte} (h : p[i]? = some b) : byteAt p i = b := by
  simp [byteAt, h]

/-- R267: the fields of a Reading, each with its index in the payload. -/
def readingFields (r : Reading) : List (Nat × Float32Bits) :=
  [(0, r.pm1), (1, r.pm25), (2, r.pm4), (3, r.pm10), (4, r.nc0), (5, r.nc1), (6, r.nc2), (7, r.nc3), (8, r.nc4),
    (9, r.tps)]

theorem measdec_reading {m : Byte} {p : List Byte} {ts : Nat} {r : Reading} (h : measdec m p ts = some r) :
    r.timestamp = ts ∧ readingFields r = (List.range 10).map fun k => (k, measField p k) := by
  unfold measdec at h
  split at h
  · cases h
  · cases h
    exact ⟨rfl, rfl⟩

theorem measdec_field {m : Byte} {p : List Byte} {ts : Nat} {r : Reading} (h : measdec m p ts = some r) {k : Nat}
    {w : Float32Bits} (hk : (k, w) ∈ readingFields r) : w = measField p k := by
  rw [(measdec_reading h).2] at hk
  obtain ⟨_, -, heq⟩ := List.mem_map.1 hk
  cases heq
  rfl

/-- R265, R268: a field whose four bytes are in the payload. -/
theorem measField_toNat {p : List Byte} {k : Nat} {b0 b1 b2 b3 : Byte} (h0 : p[4 * k]? = some b0)
    (h1 : p[4 * k + 1]? = some b1) (h2 : p[4 * k + 2]? = some b2) (h3 : p[4 * k + 3]? = some b3) :
    (measField p k).toNat = b0.toNat * 2 ^ 24 + b1.toNat * 2 ^ 16 + b2.toNat * 2 ^ 8 + b3.toNat := by
  rw [measField, byteAt_of_getElem? h0, byteAt_of_getElem? h1, byteAt_of_getElem? h2, byteAt_of_getElem? h3, f32_toNat]

theorem exec_measdec_none {s : State} {p : List Byte} {ts : Nat} (h : measdec s.cfg.minMeasLen p ts = none) :
    exec (.measdec p ts) s = .next (s.answerWith (.truncatedPayload p.length)) := by
  simp only [exec, execMeasdec, h]

theorem exec_measdec_some {s : State} {p : List Byte} {ts : Nat} {r : Reading}
    (h : measdec s.cfg.minMeasLen p ts = some r) : exec (.measdec p ts) s = .next (s.answerWith (.reading r)) := by
  simp only [exec, execMeasdec, h]

/-- Settles O45: each word of the reading is the field of its index, and a field is its four bytes in base 256. -/
theorem measdecReadsTenWords : Obligations.MeasdecReadsTenWords := by
  intro p ts s
  refine ⟨fun hshort => exec_measdec_none (measdec_eq_none hshort ts), fun hm hp => ?_⟩
  obtain ⟨r, hr⟩ := measdec_eq_some hm hp ts
  refine ⟨r, exec_measdec_some hr, (measdec_reading hr).1, fun k b0 b1 b2 b3 w hk h0 h1 h2 h3 => ?_⟩
  rw [measdec_field hr hk, measField_toNat h0 h1 h2 h3]

/-! ### ERRLOOKUP and ACKDEC (R260, R263) -/

theorem hexDigit_eq_getD : ∀ n < 16, hexDigit n = "0123456789ABCDEF".toList.getD n 'x' := by decide

theorem hex2_eq (code : Byte) :
    hex2 code = String.ofList
      [("0123456789ABCDEF".toList).getD (code.toNat / 16) 'x',
        ("0123456789ABCDEF".toList).getD (code.toNat % 16) 'x'] := by
  have hcode : code.toNat < 256 := code.isLt
  rw [hex2, hexDigit_eq_getD _ (by omega), hexDigit_eq_getD _ (by omega)]

theorem errlookup_of_not_mem {code : Byte} (h : code ∉ [(0x00 : Byte), 0x01, 0x02, 0x03, 0x04, 0x28, 0x43]) :
    errlookup code = "unknown error 0x" ++ hex2 code := by
  simp only [List.mem_cons, List.not_mem_nil, or_false, not_or] at h
  simp only [errlookup, h, if_false]

/-- Settles O44: outside the table ERRLOOKUP answers the fallback, and `hex2` writes its two digits in upper case. -/
theorem catalogAndAckAnswer : Obligations.CatalogAndAckAnswer := by
  intro s
  refine ⟨rfl, fun code => ⟨_, rfl, errlookup code, rfl, fun hunlisted => ?_⟩, fun _ => rfl⟩
  rw [errlookup_of_not_mem hunlisted, hex2_eq]

end Sys2Proof.Machine
end

section
/-! PROOFS. 60_exceptions.md R302: no rule reads the event port. Every operation is shown to commute with putting events
before those its state has emitted (`State.withPast`). From that one law follow both halves of the statement: the port is
not read, and what it has emitted is not taken back. -/

namespace Sys2Proof.Machine

open Sys2Proof

/-- The state whose event port has emitted `past` before everything else. -/
def State.withPast (past : List Event) (s : State) : State := { s with events := past ++ s.events }

/-- The outcome whose next state has emitted `past` before everything else. -/
def outcomeWithPast (past : List Event) : Host.Outcome State Fault Refusal → Host.Outcome State Fault Refusal
  | .next s => .next (s.withPast past)
  | .fault f => .fault f
  | .refused r => .refused r

section
variable (past : List Event) (s : State)

theorem silenced_withPast_events : (silenced s).withPast s.events = s := by simp [State.withPast, silenced]

theorem silencedOutcome_outcomeWithPast (o : Host.Outcome State Fault Refusal) :
    silencedOutcome (outcomeWithPast past o) = silencedOutcome o := by
  cases o <;> rfl

theorem events_of_outcomeWithPast {o : Host.Outcome State Fault Refusal} {t : State}
    (h : outcomeWithPast past o = .next t) : past <+: t.events := by
  cases o with
  | next u => cases h; exact List.prefix_append past u.events
  | fault f => cases h
  | refused r => cases h

/-! ### The fields and updates of the state -/

@[simp] theorem State.withPast_cfg : (s.withPast past).cfg = s.cfg := rfl
@[simp] theorem State.withPast_req : (s.withPast past).req = s.req := rfl
@[simp] theorem State.withPast_txn : (s.withPast past).txn = s.txn := rfl
@[simp] theorem State.withPast_dec : (s.withPast past).dec = s.dec := rfl
@[simp] theorem State.withPast_link : (s.withPast past).link = s.link := rfl
@[simp] theorem State.withPast_hostq : (s.withPast past).hostq = s.hostq := rfl
@[simp] theorem State.withPast_turns : (s.withPast past).turns = s.turns := rfl
@[simp] theorem State.withPast_busy : (s.withPast past).busy = s.busy := rfl
@[simp] theorem State.withPast_decoding : (s.withPast past).decoding = s.decoding := rfl

@[simp] theorem State.withPast_setDec (d : DecRegs) : (s.withPast past).setDec d = (s.setDec d).withPast past := rfl
@[simp] theorem State.withPast_setRxq (q : List Byte) : (s.withPast past).setRxq q = (s.setRxq q).withPast past := rfl
@[simp] theorem State.withPast_setHostq (q : List HostRecord) :
    (s.withPast past).setHostq q = (s.setHostq q).withPast past := rfl
@[simp] theorem State.withPast_setTurns (ts : List Turn) :
    (s.withPast past).setTurns ts = (s.setTurns ts).withPast past := rfl
@[simp] theorem State.withPast_setTm (t : TmState) : (s.withPast past).setTm t = (s.setTm t).withPast past := rfl

/-- An event is added at the end, whatever comes before. -/
@[simp] theorem State.withPast_emit (e : Event) : (s.withPast past).emit e = (s.emit e).withPast past := by
  simp [State.withPast, State.emit]

/-! ### The transport primitives -/

theorem rxFlush_withPast : rxFlush (s.withPast past) = ((rxFlush s).1, (rxFlush s).2.withPast past) := by
  rw [rxFlush, rxFlush, State.withPast_link]
  split <;> rfl

theorem txWrite_withPast (f : List Byte) :
    txWrite f (s.withPast past) = ((txWrite f s).1, (txWrite f s).2.withPast past) := by
  rw [txWrite, txWrite, State.withPast_link]
  split <;> rfl

theorem rxByte_withPast : rxByte (s.withPast past) = ((rxByte s).1, (rxByte s).2.withPast past) := by
  obtain ⟨hb, h⟩ | ⟨hb, hd, h⟩ | ⟨b, q, hb, hd, hq, h⟩ | ⟨hb, hd, hq, ht, h⟩ | ⟨hb, hd, hq, ht, h⟩ := rxByte_cases s <;>
    rw [h]
  · exact rxByte_broken (s := s.withPast past) hb
  · exact rxByte_expired (s := s.withPast past) hb hd
  · exact rxByte_byte (s := s.withPast past) hb hd hq
  · exact rxByte_dry (s := s.withPast past) hb hd hq ht
  · exact rxByte_waits (s := s.withPast past) hb hd hq ht

/-! ### Results of an attempt -/

theorem enter_withPast (t : TmState) : enter t (s.withPast past) = (enter t s).withPast past := by
  unfold enter
  split
  · exact State.withPast_emit past (s.setTm t) _
  · rfl

theorem recordFailure_withPast (f : FailRec) :
    recordFailure f (s.withPast past) = (recordFailure f s).withPast past := rfl

theorem takeFailure_withPast (f : FailRec) : takeFailure f (s.withPast past) = (takeFailure f s).withPast past := by
  rw [takeFailure, recordFailure_withPast, State.withPast_emit, enter_withPast]
  rfl

theorem failTransport_withPast : failTransport (s.withPast past) = (failTransport s).withPast past :=
  takeFailure_withPast past s _

theorem takeFrame_withPast (f : Frame) : takeFrame f (s.withPast past) = (takeFrame f s).withPast past := by
  rw [takeFrame, takeFrame, ← enter_withPast, ← State.withPast_emit]
  rfl

theorem conclude_withPast (r : DecResult) : conclude r (s.withPast past) = (conclude r s).withPast past := by
  cases r with
  | frame f => exact takeFrame_withPast past s f
  | failed f => exact takeFailure_withPast past s f

/-! ### DECODE and the rows of the wire -/

theorem settle_withPast (p : DecRegs × Option DecResult) :
    settle p (s.withPast past) = (settle p s).withPast past := by
  unfold settle
  split
  · rfl
  · exact conclude_withPast past (s.setDec p.1) _

theorem receiveAnswer_withPast (a : RxAnswer) :
    receiveAnswer a (s.withPast past) = (receiveAnswer a s).withPast past :=
  settle_withPast past s _

theorem receive_withPast (a : Option RxAnswer) : receive a (s.withPast past) = (receive a s).withPast past := by
  cases a with
  | none => rfl
  | some a => exact receiveAnswer_withPast past s a

theorem decodeStep_withPast : decodeStep (s.withPast past) = outcomeWithPast past (decodeStep s) := by
  simp only [decodeStep, State.withPast_txn, State.withPast_dec, rxByte_withPast, receive_withPast]
  split_ifs <;> rfl

theorem wireByte_withPast (b : Byte) : wireByte b (s.withPast past) = (wireByte b s).withPast past := by
  rw [wireByte, wireByte, State.withPast_decoding, receiveAnswer_withPast]
  split <;> rfl

theorem wireEscape_withPast (c : Byte) : wireEscape c (s.withPast past) = (wireEscape c s).withPast past := by
  simp only [wireEscape, State.withPast_decoding, State.withPast_dec, State.withPast_link, wireByte_withPast,
    State.withPast_setRxq]
  split_ifs <;> rfl

/-! ### The host port -/

theorem refuse_withPast (op : HostOp) (r : RefuseReason) :
    refuse op r (s.withPast past) = (refuse op r s).withPast past :=
  State.withPast_emit past (s.answerWith _) _

theorem executeOp_withPast (c : Byte) (p : List Byte) :
    executeOp c p (s.withPast past) = (executeOp c p s).withPast past := by
  have hchecks : executeRefusal c p (s.withPast past) = executeRefusal c p s := rfl
  rw [executeOp, executeOp, hchecks]
  split
  · exact refuse_withPast past s _ _
  · rfl

theorem consumeOp_withPast : consumeOp (s.withPast past) = outcomeWithPast past (consumeOp s) := by
  rw [consumeOp, consumeOp, State.withPast_txn, refuse_withPast]
  cases s.txn.tmState with
  | completed =>
    simp only [State.withPast_cfg, State.withPast_req]
    split <;> rfl
  | _ => rfl

theorem execCfgwrite_withPast (w : CfgWrite) :
    execCfgwrite w (s.withPast past) = outcomeWithPast past (execCfgwrite w s) := by
  rw [execCfgwrite, execCfgwrite, State.withPast_busy, refuse_withPast]
  split <;> rfl

theorem execRxbyte_withPast : execRxbyte (s.withPast past) = outcomeWithPast past (execRxbyte s) := by
  rw [execRxbyte, execRxbyte, rxByte_withPast]
  cases (rxByte s).1 <;> rfl

/-- No operation reads the event port. -/
theorem exec_withPast (i : Instr) : exec i (s.withPast past) = outcomeWithPast past (exec i s) := by
  cases i with
  | startMeas p | stopMeas p | readMeas p | autoclean p | fanClean p | devInfo p | devReset p | execute _ p =>
    exact congrArg Host.Outcome.next (executeOp_withPast past s _ p)
  | esc7E | esc7D | esc11 | esc13 => exact congrArg Host.Outcome.next (wireEscape_withPast past s _)
  | marker | status00 | status01 | status02 | status03 | status04 | status28 | status43 | statusOther _ =>
    exact congrArg Host.Outcome.next (wireByte_withPast past s _)
  | stuff | chkgen | errlookup | ackdec | reset => rfl
  | unstuff x =>
    simp only [exec, execUnstuff]
    split <;> rfl
  | chkverify a c l p k =>
    simp only [exec, execChkverify]
    split <;> rfl
  | encode a c p =>
    simp only [exec, execEncode]
    split <;> rfl
  | measdec p ts =>
    simp only [exec, execMeasdec, State.withPast_cfg]
    split <;> rfl
  | decode => exact decodeStep_withPast past s
  | consume => exact consumeOp_withPast past s
  | cfgwrite w => exact execCfgwrite_withPast past s w
  | rxbyte => exact execRxbyte_withPast past s
  | txwrite x =>
    simp only [exec, execTxwrite, txWrite_withPast]
    rfl
  | rxflush =>
    simp only [exec, execRxflush, rxFlush_withPast]
    rfl

/-! ### The step -/

theorem beginAttempt_withPast : beginAttempt (s.withPast past) = (beginAttempt s).withPast past :=
  State.withPast_emit past (s.setTxn _) _

theorem sendRequest_withPast : sendRequest (s.withPast past) = (sendRequest s).withPast past := by
  simp only [sendRequest, State.withPast_req, State.withPast_txn, txWrite_withPast, State.withPast_emit,
    State.withPast_setTm, failTransport_withPast]
  split <;> rfl

theorem startStep_withPast : startStep (s.withPast past) = (startStep s).withPast past := by
  simp only [startStep, beginAttempt_withPast, rxFlush_withPast, sendRequest_withPast, failTransport_withPast]
  split <;> rfl

theorem engineStep_withPast : engineStep (s.withPast past) = outcomeWithPast past (engineStep s) := by
  cases htm : s.txn.tmState with
  | start =>
    rw [engineStep_start htm, engineStep_start (s := s.withPast past) htm, startStep_withPast]
    rfl
  | sent =>
    rw [engineStep_sent htm, engineStep_sent (s := s.withPast past) htm]
    rfl
  | await => rw [awaitStepIsDecode s htm, awaitStepIsDecode (s.withPast past) htm, exec_withPast]
  | backoff =>
    rw [engineStep_backoff htm, engineStep_backoff (s := s.withPast past) htm]
    rfl
  | idle | completed | deviceError | protocolError | transportError =>
    have hrests : s.txn.tmState = .idle ∨ s.done = true := by simp [State.done, htm, isTerminal]
    rw [engineStep_rests hrests, engineStep_rests (s := s.withPast past) hrests]
    rfl

theorem hostStep_withPast : hostStep (s.withPast past) = outcomeWithPast past (hostStep s) := by
  rw [hostStep, hostStep, State.withPast_hostq]
  cases s.hostq with
  | nil => rfl
  | cons r rest =>
    dsimp only
    cases hostInstr r with
    | error e => rfl
    | ok i =>
      simp only [State.withPast_setHostq, exec_withPast]
      split <;> rfl

theorem nextTurn_withPast : nextTurn (s.withPast past) = ((nextTurn s).1, (nextTurn s).2.withPast past) := by
  rw [nextTurn, nextTurn, State.withPast_turns]
  split <;> rfl

/-- No step reads the event port: what was emitted before stays before everything the step does. -/
theorem step_withPast : step (s.withPast past) = outcomeWithPast past (step s) := by
  rw [step, step, nextTurn_withPast]
  cases (nextTurn s).1 with
  | host => exact hostStep_withPast past _
  | engine => exact engineStep_withPast past _
  | device bs => rfl
  | transport f w b => rfl
  | clock n l => rfl

end

/-- A step is the step of the state with its events dropped, with those events put back in front. -/
theorem step_eq_step_silenced (s : State) : step s = outcomeWithPast s.events (step (silenced s)) := by
  rw [← step_withPast, silenced_withPast_events]

/-- Settles O55: the step from the state without its events differs in nothing but the events, which come back as the
first ones. -/
theorem eventPortIsNeverRead : Obligations.EventPortIsNeverRead := by
  refine ⟨fun s => ?_, fun s t hstep => ?_⟩
  · rw [step_eq_step_silenced, silencedOutcome_outcomeWithPast]
  · rw [step_eq_step_silenced] at hstep
    exact events_of_outcomeWithPast s.events hstep

end Sys2Proof.Machine
end

section
/-! PROOFS. 70_reset_and_hazards.md R320, R321: the operation RESET. -/

namespace Sys2Proof.Machine

open Sys2Proof

/-- RESET goes to the state right after reset, but for what is not the engine's own: the transport (where TX counts anew,
log 16), the time, the event port, what the host and the environment have yet to do, and the answer. -/
theorem exec_reset (s : State) :
    exec .reset s =
      .next { State.reset with
        link := { s.link with tx := [] }, now := s.now, lapse := s.lapse, hostq := s.hostq, turns := s.turns,
        answer := some .accepted, events := s.events, draws := s.draws } := rfl

/-- Settles O42: RESET leaves the registers of the state right after reset, which have the values of R33 by
`resetStateValues`. -/
theorem resetOperationResets : Obligations.ResetOperationResets := by
  intro s
  obtain ⟨tmState, decState, busy, done, retries, timeout, backoff, settle, minMeasLen, decsel, attRem, attempt,
    resAttempt, expAddr, rxCnt, escPend, malformed, kind, step⟩ := resetStateValues
  exact ⟨_, exec_reset s, tmState, decState, busy, done, retries, timeout, backoff, settle, minMeasLen, decsel, attRem,
    attempt, resAttempt, expAddr, rxCnt, escPend, malformed, kind, step, rfl, rfl, rfl, rfl, rfl, rfl, rfl⟩

end Sys2Proof.Machine
end
